-- ==== Sys2Proof/Word.lean ====
section
/-! DEFINITION. The words of the ZL48: bytes, the widths the manual names, and the indices of its tables. -/

namespace Sys2Proof

/-- One byte of a telegram. -/
abbrev Byte := BitVec 8

/-- The bytes of a telegram or of a part of one, the first on the line first. -/
abbrev Bytes := List Byte

/-- A 32-bit word of the fold (R82), an odometer, the epoch, the nonce counter. -/
abbrev Word32 := BitVec 32

/-- A 16-bit class code (R104, R158). -/
abbrev Code := BitVec 16

/-- A 48-bit serial number (R91). -/
abbrev Serial := BitVec 48

/-- A 24-bit lot number (R104). -/
abbrev Lot := BitVec 24

/-- A 64-bit nonce: epoch above, counter below (R88). -/
abbrev Nonce := BitVec 64

/-- A 16-byte key, byte 0 the most significant (R82). -/
abbrev Key := BitVec 128

/-- A position by its entry index: index `i` is position `i + 1` (R1). -/
abbrev Pos := Fin 48

/-- An index of the Class Table (R158). -/
abbrev ClassIdx := Fin 32

/-- The number of a key slot (R177). -/
abbrev SlotNo := Fin 16

/-- A transaction record by its place among the four (R55). -/
abbrev RecNo := Fin 4

end Sys2Proof
end

