-- ==== Sys2Proof/Syntax.lean ====
section
/-! DEFINITION. The commands of the ZL48: one constructor for each row of spec/opcode_table.json, with the operands
the row's event brings. No row gives bits. -/

namespace Sys2Proof

/-- The two ports of the format bus (08, R131). -/
inductive Port where
  | u
  | d
deriving DecidableEq, Repr

/-- What the line delivers of a service telegram whose kind, node, origin and code the row fixes (08, Layouts):
the transaction tag, the payload length byte, the payload and the two bytes of the check sequence. -/
structure Frame where
  tag : Byte
  length : Byte
  payload : Bytes
  check : BitVec 16
deriving DecidableEq, Repr

/-- The commands. A `body` is a whole telegram after its kind byte; `bytes` is a whole telegram. -/
inductive Instr where
  /-- The supply has risen (R191). -/
  | por
  /-- The supply is lost (R190). -/
  | powerLoss
  /-- The RESET line is asserted (R192). -/
  | resetAssert
  /-- The RESET line is released (R191). -/
  | pinReset
  /-- LINE-RESET, code 0x70, to node 0 (R175). -/
  | lineReset (f : Frame)
  /-- A CYCLE telegram on port U (R135); `portFree` says that the sending under way on port D, if any, has ended
  when the telegram is ready to be sent (R136). -/
  | cycle (body : Bytes) (portFree : Bool)
  /-- The advance and decay step of one position at a cycle boundary (R25, R48). -/
  | decayStep (p : Pos)
  /-- The passage from STARTING to RUNNING (R196). -/
  | passageToRunning
  /-- The sending under way on port D ends and the waiting cycle telegram is sent (R136). -/
  | cycleTelegramSend
  /-- A CYCLE-RETURN telegram on port D (R137, R138). -/
  | cycleReturn (body : Bytes)
  /-- The qualifying PRESENT input of one position that completes its settling, with its stroke counter (R10). -/
  | settlingComplete (p : Pos) (counter : BitVec 16)
  /-- The MISSING input of one position that brings its loss count to lost_cycles (R8, R15). -/
  | lossProcessing (p : Pos)
  /-- The still timer has reached still_timeout (R140). -/
  | stillTimeout
  /-- Port D transmit is free in the gap (R142). -/
  | gapOpportunity
  /-- Port D transmit is free while the line is STILL (R143). -/
  | stillTurn
  /-- Port U transmit becomes free (R149). -/
  | portUTransmit
  /-- A telegram of a kind not taken on its port (R131). -/
  | telegramWrongKind (port : Port) (bytes : Bytes)
  /-- A SERVICE telegram on port U (R144, R145, R147). -/
  | masterNodeRequest (body : Bytes)
  /-- TAG-WRITE, code 0x03, to a node (R146). -/
  | tagWrite (node : Byte) (f : Frame)
  /-- A SERVICE telegram on port D (R144, R148). -/
  | nodeReplyForward (body : Bytes)
  /-- IDENT, code 0x90, from a node with origin VERIFIER (R70). -/
  | ident (node : Byte) (f : Frame)
  /-- ANSWER, code 0x91, from a node with origin VERIFIER (R71). -/
  | answer (node : Byte) (f : Frame)
  /-- NO-TAG, code 0x92, from a node with origin VERIFIER (R74). -/
  | noTag (node : Byte) (f : Frame)
  /-- The deadline of a record is reached (R73). -/
  | deadlineExpiry (r : RecNo)
  /-- READ-ENTRIES, code 0x40 (R156). -/
  | readEntries (f : Frame)
  /-- WRITE-ENTRIES, code 0x41 (R160). -/
  | writeEntries (f : Frame)
  /-- HOLD, code 0x42 (R167). -/
  | hold (f : Frame)
  /-- RELEASE-HOLD, code 0x43 (R167). -/
  | releaseHold (f : Frame)
  /-- DISCARD-STAGED, code 0x44 (R167). -/
  | discardStaged (f : Frame)
  /-- NOTICE-DRAIN, code 0x48 (R172). -/
  | noticeDrain (f : Frame)
  /-- ATTENTION-READ, code 0x49 (R174). -/
  | attentionRead (f : Frame)
  /-- ATTENTION-MASK, code 0x4A (R174). -/
  | attentionMask (f : Frame)
  /-- POSITION-RELEASE, code 0x50 (R127). -/
  | positionRelease (f : Frame)
  /-- POSITION-RECHALLENGE, code 0x51 (R170). -/
  | positionRechallenge (f : Frame)
  /-- REVOKE-INSERT, code 0x58 (R107). -/
  | revokeInsert (f : Frame)
  /-- REVOKE-REMOVE, code 0x59 (R110). -/
  | revokeRemove (f : Frame)
  /-- REVOKE-CLEAR, code 0x5A (R111). -/
  | revokeClear (f : Frame)
  /-- KEY-PROGRAM, code 0x60 (R181). -/
  | keyProgram (f : Frame)
  /-- KEY-ERASE, code 0x61 (R183). -/
  | keyErase (f : Frame)
  /-- KEY-PROTECT, code 0x62 (R185). -/
  | keyProtect (f : Frame)
  /-- A service request to node 0 with a code that names no management request (R154). -/
  | unknownRequest (code : Byte) (f : Frame)
  /-- The completion tick of a program; `agrees` is the array's read-back (R182). -/
  | programCompletion (agrees : Bool)
  /-- The completion tick of an erase; `checks` says for each of the four slots whether its check succeeds (R184). -/
  | eraseCompletion (checks : Vector Bool 4)
  /-- The completion tick of a change of the boundary (R185). -/
  | protectCompletion
  /-- The completion tick of an epoch update (R187). -/
  | epochUpdateCompletion
deriving DecidableEq, Repr

end Sys2Proof
end

