-- ==== Sys2Proof/Decode.lean ====
section
/-! DEFINITION. The decoder over the rows of spec/opcode_table.json that give bits: none does (every row's "fields" is empty). -/

namespace Sys2Proof

/-- The command a word spells: no row of the table gives bits, so no word spells one (LOG 13). -/
def decodeTableWord (_nbits _w : Nat) : Option Instr := none

end Sys2Proof
end

