-- ==== Sys2Proof/Config.lean ====
section
/-! DEFINITION. What the part fixes (sizes of its tables and queues, durations in ticks) and the free values: the choices
the manual leaves open inside one step. -/

namespace Sys2Proof.Config

/-- Entries of the sighting cache (R91). -/
def sightingCapacity : Nat := 128
/-- Entries of the revocation list (R105). -/
def revocationCapacity : Nat := 512
/-- Items of the pending edit set (R164). -/
def editCapacity : Nat := 64
/-- Notices of the notice queue (R171). -/
def noticeCapacity : Nat := 32
/-- Notices one NOTICE-DRAIN reply carries at most (R172). -/
def drainLimit : Nat := 15
/-- Telegrams of the master service queue (R147). -/
def masterQueueCapacity : Nat := 4
/-- Good cycle telegrams the start waits for (R195). -/
def startCycles : Nat := 8
/-- The most payload bytes of a service telegram (R144). -/
def payloadLimit : Nat := 240
/-- Sendings of one transaction (R73). -/
def attempts : Nat := 3
/-- Ticks of a key program (R181). -/
def programTicks : Nat := 4
/-- Ticks of an erase (R183). -/
def eraseTicks : Nat := 20
/-- Ticks of a change of the boundary (R185). -/
def protectTicks : Nat := 4
/-- Ticks of an epoch update (R186). -/
def epochTicks : Nat := 4

/-- FREE VALUE (LOG 6): whether an interrupted epoch update had written the new epoch (R189). -/
opaque epochWritten : Nat → Bool

/-- FREE VALUE (LOG 7): whether, at one cycle boundary, the pending edit set is applied before the cycle-counted
fields advance (R25, R49). -/
opaque applicationFirst : Nat → Bool

/-- FREE VALUE (LOG 8): the rank of a position among the positions handled within one return or one boundary
(R7, R25); the lower rank is handled first, equal ranks in ascending order of position number. -/
opaque handlingRank : Nat → Pos → Nat

end Sys2Proof.Config
end

