-- ==== Sys2Proof/Machine/State.lean ====
section
/-! DEFINITION. The state of the ZL48: every piece of state the manual gives its ten blocks, as plain data, and the state
right after a power-on reset of a delivered part. -/

namespace Sys2Proof.Machine

/-! ### Reasons a step can stop -/

/-- No event of the manual stops the part: damaged telegrams are discarded (R131, R144) and refused requests are
answered (R154). Nobody raises a fault. -/
inductive Fault
deriving DecidableEq, Repr

/-- `notModelled`: raised by an arm of `exec` whose command has no meaning; safe. Every command has its meaning, so
nothing raises it. -/
inductive Refusal where
  | notModelled (mnemonic : String)
deriving DecidableEq, Repr

/-! ### Positions (01) -/

/-- The fitting-cycle state of a position (R5). -/
inductive Phase where
  | disabled
  | vacant
  | settling
  | identifying
  | challenging
  | held
  | lost
deriving DecidableEq, Repr

/-- The verdict on a part (R5, R44). -/
inductive Verdict where
  | none
  | undecided
  | genuine
  | counterfeit
  | revoked
deriving DecidableEq, Repr

/-- The reason of a verdict change, in the order of its codes 1 to 16 (R153). -/
inductive Reason where
  | pass
  | odoOk
  | fail
  | noAnswer
  | rollback
  | lag
  | ahead
  | duplicate
  | revoked
  | decay
  | removed
  | lost
  | disabled
  | classUnknown
  | noTag
  | tableChange
deriving DecidableEq, Repr

/-- The form of the watch condition (R3). -/
inductive WatchForm where
  | allSet
  | allClear
deriving DecidableEq, Repr

/-- What a round was called by (R57, R58). -/
inductive RoundKind where
  | new
  | due
  | sweep
  | manual
deriving DecidableEq, Repr

/-- The kind of a request queue entry (R55). -/
inductive RequestKind where
  | ident
  | new
  | due
deriving DecidableEq, Repr

/-- The identity a tag reports (R17). -/
structure Identity where
  serial : Serial
  cls : Code
  lot : Lot
deriving DecidableEq, Repr

/-- The odometer reference: the pair O_ref, S_ref (R38). -/
structure OdoRef where
  odo : Word32
  strokes : Nat
deriving DecidableEq, Repr

/-- The configuration half of a position record (R2). -/
structure PosConfig where
  enabled : Bool
  settleCycles : Nat
  watchForm : WatchForm
  watchMask : BitVec 14
  gateOffset : Nat
  gateLength : Nat
  clampOffset : Option Nat
deriving DecidableEq, Repr

/-- The defaults of R2. -/
def PosConfig.default : PosConfig :=
  { enabled := true, settleCycles := 16, watchForm := .allSet, watchMask := 0, gateOffset := 0, gateLength := 1,
    clampOffset := none }

/-- The runtime half of a position record (R5). -/
structure Runtime where
  phase : Phase
  verdict : Verdict
  reason : Option Reason
  score : Int
  latch : Bool
  identity : Option Identity
  classIndex : Option ClassIdx
  strokes : Nat
  prevStroke : BitVec 16
  odoRef : Option OdoRef
  lastOdo : Option Word32
  settleCount : Nat
  lossCount : Nat
  decayCount : Nat
  sweepAge : Nat
  worn : Bool
  released : Bool
  keyMissing : Bool
  strokeJump : Bool
  remaining : Nat
  roundKind : RoundKind
  pendingRequest : Option RequestKind
deriving DecidableEq, Repr

/-- The cleared values of R5, in a given phase. -/
def Runtime.cleared (phase : Phase) : Runtime :=
  { phase, verdict := .none, reason := none, score := 0, latch := false, identity := none, classIndex := none, strokes := 0,
    prevStroke := 0, odoRef := none, lastOdo := none, settleCount := 0, lossCount := 0, decayCount := 0, sweepAge := 0,
    worn := false, released := false, keyMissing := false, strokeJump := false, remaining := 0, roundKind := .new,
    pendingRequest := none }

/-! ### Challenge scheduler (03) -/

/-- An entry of the request queue (R55). -/
structure Request where
  position : Pos
  kind : RequestKind
deriving DecidableEq, Repr

/-- The query of a transaction, with what only a challenge holds: its nonce and the captured key slot (R61). -/
inductive Query where
  | ident
  | challenge (nonce : Nonce) (slot : SlotNo)
deriving DecidableEq, Repr

/-- The state of a record in use (R61); the numbers keep the order of entry (R64, R79). -/
inductive RecordState where
  | issued
  | resendWaiting (order : Nat)
  | awaitingKey (odo : Word32) (response : Word32) (order : Nat)
deriving DecidableEq, Repr

/-- A transaction record in use (R61). -/
structure Record where
  tag : Nat
  position : Pos
  query : Query
  attempt : Nat
  deadline : Nat
  state : RecordState
deriving DecidableEq, Repr

/-- The scheduler's state (R55). -/
structure Sch where
  queue : List Request
  cursor : Pos
  records : Vector (Option Record) 4
  tagCounter : Nat
  nonceCounter : Word32
deriving DecidableEq, Repr

/-- The scheduler after every reset (R55). -/
def Sch.initial : Sch :=
  { queue := [], cursor := 0, records := Vector.replicate 4 none, tagCounter := 0, nonceCounter := 0 }

/-! ### Sighting cache (05) and revocation list (06) -/

/-- A sighting entry (R91). -/
structure Sighting where
  cls : Code
  serial : Serial
  lastOdo : Option Word32
  holders : List Pos
deriving DecidableEq, Repr

/-- The scope of a revocation entry (R104). -/
inductive Scope where
  | wholeLot
  | serial (serial : Serial)
deriving DecidableEq, Repr

/-- A revocation entry (R104). -/
structure Revocation where
  cls : Code
  lot : Lot
  scope : Scope
deriving DecidableEq, Repr

/-! ### Gate unit (07) -/

/-- A gate action (R116). -/
inductive GateAction where
  | pass
  | clamp
  | block
deriving DecidableEq, Repr

/-! ### Forwarding unit (08) -/

/-- The framing lock (R133). -/
inductive Framing where
  | notSet
  | short
  | long
deriving DecidableEq, Repr

/-- The line state (R140). -/
inductive LineState where
  | cycling
  | still
deriving DecidableEq, Repr

/-- The two sides that share port D transmit (R142). -/
inductive Side where
  | master
  | verifier
deriving DecidableEq, Repr

/-- The return expectation (R137). -/
structure Expectation where
  cycleNumber : BitVec 16
  slotCount : Nat
  slotSize : Nat
deriving DecidableEq, Repr

/-- An open gap: the used count, and the opportunities it offers, taken from Setup when it opens (R141, R169). -/
structure Gap where
  used : Nat
  slots : Nat
  verifierSlots : Nat
deriving DecidableEq, Repr

/-- A cycle telegram waiting for port D transmit (R136). -/
structure WaitingCycle where
  bytes : Bytes
  expectation : Expectation
deriving DecidableEq, Repr

/-- A telegram for port U, and whether its sending opens the gap (R137, R138). -/
structure Upstream where
  bytes : Bytes
  opensGap : Bool
deriving DecidableEq, Repr

/-- The forwarding unit's state (R152). -/
structure Fwd where
  framing : Framing
  lineState : LineState
  stillTimer : Option Nat
  expectation : Option Expectation
  gap : Option Gap
  lastServed : Side
  masterQueue : List Bytes
  cycleCount : Word32
  dSending : Option Bytes
  dWaiting : Option WaitingCycle
  uSending : Option Upstream
  uReady : List Upstream
deriving DecidableEq, Repr

/-- The forwarding unit after a reset (R152), with what a line reset lets run to its end in sending on the two ports. -/
def Fwd.initial (dSending : Option Bytes) (uSending : Option Upstream) : Fwd :=
  { framing := .notSet, lineState := .still, stillTimer := none, expectation := none, gap := none, lastServed := .verifier,
    masterQueue := [], cycleCount := 0, dSending, dWaiting := none, uSending, uReady := [] }

/-! ### Management unit (09) -/

/-- A Class Table entry (R158; fields of R30, R121 and of the layout in R153). -/
structure ClassEntry where
  code : Code
  keySlot : SlotNo
  repeatCount : Nat
  sweepPeriod : Nat
  strokeCap : Nat
  policyCf : GateAction
  policyPending : GateAction
  policyWorn : GateAction
  clampValue : Nat
  wPass : Int
  wOdoOk : Int
  wFail : Int
  wNoAnswer : Int
  wDup : Int
  wAhead : Int
  lagRate : Nat
  slack : Nat
  lagCap : Nat
  odoTol : Nat
  lifeLimit : Nat
  failLatch : Bool
  decayStep : Nat
  tGen : Int
  tCf : Int
  hyst : Nat
  decayPeriod : Nat
deriving DecidableEq, Repr

/-- An empty entry: code 0 and every other field 0 (R158). -/
def ClassEntry.empty : ClassEntry :=
  { code := 0, keySlot := 0, repeatCount := 0, sweepPeriod := 0, strokeCap := 0, policyCf := .pass, policyPending := .pass,
    policyWorn := .pass, clampValue := 0, wPass := 0, wOdoOk := 0, wFail := 0, wNoAnswer := 0, wDup := 0, wAhead := 0,
    lagRate := 0, slack := 0, lagCap := 0, odoTol := 0, lifeLimit := 0, failLatch := false, decayStep := 0, tGen := 0,
    tCf := 0, hyst := 0, decayPeriod := 0 }

/-- The Setup record (R168). -/
structure Setup where
  positionCount : Nat
  gapSlots : Nat
  verifierSlots : Nat
  answerTimeout : Nat
  stillTimeout : Nat
  lostCycles : Nat
  undecidedRetry : Nat
  unknownPolicy : GateAction
  unknownClamp : Nat
  defaultStrokeCap : Nat
deriving DecidableEq, Repr

/-- The defaults of R168. -/
def Setup.default : Setup :=
  { positionCount := 48, gapSlots := 6, verifierSlots := 2, answerTimeout := 20, stillTimeout := 50, lostCycles := 8,
    undecidedRetry := 64, unknownPolicy := .block, unknownClamp := 0, defaultStrokeCap := 8 }

/-- An item of the pending edit set (R164): a table, an index and the contents of one entry. -/
inductive EditItem where
  | config (p : Pos) (contents : PosConfig)
  | cls (i : ClassIdx) (contents : ClassEntry)
deriving DecidableEq, Repr

/-- A notice (R52). -/
structure Notice where
  position : Pos
  before : Verdict
  after : Verdict
  reason : Reason
  cls : Code
  serial : Serial
  score : Int
  cycle : BitVec 16
deriving DecidableEq, Repr

/-- The five attention flags, latched or as a mask (R173). -/
structure Attention where
  notice : Bool
  overrun : Bool
  keyDone : Bool
  keyMissing : Bool
  framing : Bool
deriving DecidableEq, Repr

/-- All flags clear. -/
def Attention.clear : Attention :=
  { notice := false, overrun := false, keyDone := false, keyMissing := false, framing := false }

/-- The reset cause (R198). -/
inductive ResetCause where
  | none
  | power
  | pin
  | line
deriving DecidableEq, Repr

/-- The management unit's state (R176). -/
structure Mgt where
  classes : Vector ClassEntry 32
  edits : List EditItem
  hold : Bool
  setup : Setup
  setupLock : Bool
  notices : List Notice
  attention : Attention
  mask : Attention
  resetCause : ResetCause
deriving DecidableEq, Repr

/-! ### Key store (10) -/

/-- A key slot (R177). -/
inductive KeySlot where
  | blank
  | programmed (key : Key)
  | faulty
deriving DecidableEq, Repr

/-- The operation in flight with its operand and its completion tick (R180). -/
inductive KeyOp where
  | idle
  | programming (slot : SlotNo) (key : Key) (due : Nat)
  | erasing (page : Fin 4) (due : Nat)
  | protecting (boundary : Nat) (due : Nat)
  | epochUpdate (due : Nat)
deriving DecidableEq, Repr

/-- The last result (R180). -/
inductive KeyResult where
  | none
  | programmed
  | programFaulty
  | erased
  | eraseFaulty
  | protectDone
deriving DecidableEq, Repr

/-- The key store (R177 to R180). -/
structure KeyStore where
  slots : Vector KeySlot 16
  boundary : Nat
  epoch : Word32
  op : KeyOp
  epochPending : Bool
  lastResult : KeyResult
deriving DecidableEq, Repr

/-! ### The device (11) and the whole state -/

/-- The device state (R193). -/
inductive DeviceState where
  | starting
  | running
deriving DecidableEq, Repr

/-- The supply: on, off, or risen while the RESET line is held, so that its release gives a POR (R191). -/
inductive Supply where
  | on
  | off
  | risen
deriving DecidableEq, Repr

/-- The state. `pending`, `supply`, `resetAsserted`, `now` and `freeIndex` are what the model needs to take commands,
power, ticks and free values; every other field is the manual's. -/
structure State where
  pending : List Instr
  freeIndex : Nat
  supply : Supply
  resetAsserted : Bool
  now : Nat
  device : DeviceState
  startCount : Nat
  configs : Vector PosConfig 48
  run : Vector Runtime 48
  sch : Sch
  sightings : List Sighting
  revocations : List Revocation
  gatedMap : Vector Bool 48
  fwd : Fwd
  mgt : Mgt
  kst : KeyStore
deriving DecidableEq, Repr

/-- The management unit after POR and pin reset (R176). -/
def Mgt.initial (cause : ResetCause) : Mgt :=
  { classes := Vector.replicate 32 ClassEntry.empty, edits := [], hold := false, setup := Setup.default, setupLock := false,
    notices := [], attention := Attention.clear, mask := Attention.clear, resetCause := cause }

/-- A delivered part right after its first power-on reset at tick 0 (R191, R193; R177, R178, R179 as delivered): the
positions are VACANT (R6 with the defaults of R2 and R168) and the reset's epoch update runs until tick 4. LOG 1. -/
def State.reset : State :=
  { pending := [], freeIndex := 0, supply := .on, resetAsserted := false, now := 0, device := .starting, startCount := 0,
    configs := Vector.replicate 48 PosConfig.default, run := Vector.replicate 48 (Runtime.cleared .vacant),
    sch := Sch.initial, sightings := [], revocations := [], gatedMap := Vector.replicate 48 false,
    fwd := Fwd.initial none none, mgt := Mgt.initial .power,
    kst := { slots := Vector.replicate 16 .blank, boundary := 16, epoch := 0, op := .epochUpdate Config.epochTicks,
             epochPending := false, lastResult := .none } }

end Sys2Proof.Machine
end

