-- ==== Sys2Proof/Machine/Codes.lean ====
section
/-! DEFINITION. The code values of 08, Layouts and code values (R153): telegram kinds, origins, request and reply codes,
refusal causes, and the codes of the fields of entries. -/

namespace Sys2Proof.Machine

/-! Telegram kinds and origins. -/
def kindCycle : Byte := 0x01
def kindCycleReturn : Byte := 0x02
def kindService : Byte := 0x03
def originMaster : Byte := 0x00
def originVerifier : Byte := 0x01

/-! Request codes. -/
def codeIdentQuery : Byte := 0x01
def codeChallenge : Byte := 0x02
def codeTagWrite : Byte := 0x03
def codeReadEntries : Byte := 0x40
def codeWriteEntries : Byte := 0x41
def codeHold : Byte := 0x42
def codeReleaseHold : Byte := 0x43
def codeDiscardStaged : Byte := 0x44
def codeNoticeDrain : Byte := 0x48
def codeAttentionRead : Byte := 0x49
def codeAttentionMask : Byte := 0x4A
def codePositionRelease : Byte := 0x50
def codePositionRechallenge : Byte := 0x51
def codeRevokeInsert : Byte := 0x58
def codeRevokeRemove : Byte := 0x59
def codeRevokeClear : Byte := 0x5A
def codeKeyProgram : Byte := 0x60
def codeKeyErase : Byte := 0x61
def codeKeyProtect : Byte := 0x62
def codeLineReset : Byte := 0x70

/-- The codes that name a management request (08, Requests, replies and their payloads; R154). -/
def managementCodes : List Byte :=
  [codeReadEntries, codeWriteEntries, codeHold, codeReleaseHold, codeDiscardStaged, codeNoticeDrain, codeAttentionRead,
   codeAttentionMask, codePositionRelease, codePositionRechallenge, codeRevokeInsert, codeRevokeRemove, codeRevokeClear,
   codeKeyProgram, codeKeyErase, codeKeyProtect, codeLineReset]

/-! Reply codes. -/
def codeOk : Byte := 0x80
def codeAccepted : Byte := 0x81
def codeRefused : Byte := 0x82
def codeIdent : Byte := 0x90
def codeAnswer : Byte := 0x91
def codeNoTag : Byte := 0x92
def codeBlocked : Byte := 0xA0
def codeSegmentBusy : Byte := 0xA1

/-- A reply code is 0x80 or above (08, R145). -/
def isReplyCode (code : Byte) : Bool := code.msb

/-- The cause of a REFUSED reply. -/
inductive Cause where
  | range
  | duplicate
  | full
  | busy
  | locked
  | state
  | unknown
  | notFound
deriving DecidableEq, Repr

def Cause.code : Cause → Byte
  | .range => 1
  | .duplicate => 2
  | .full => 3
  | .busy => 4
  | .locked => 5
  | .state => 6
  | .unknown => 7
  | .notFound => 8

def Phase.code : Phase → Nat
  | .disabled => 0
  | .vacant => 1
  | .settling => 2
  | .identifying => 3
  | .challenging => 4
  | .held => 5
  | .lost => 6

def Verdict.code : Verdict → Nat
  | .none => 0
  | .undecided => 1
  | .genuine => 2
  | .counterfeit => 3
  | .revoked => 4

def Reason.code : Reason → Nat
  | .pass => 1
  | .odoOk => 2
  | .fail => 3
  | .noAnswer => 4
  | .rollback => 5
  | .lag => 6
  | .ahead => 7
  | .duplicate => 8
  | .revoked => 9
  | .decay => 10
  | .removed => 11
  | .lost => 12
  | .disabled => 13
  | .classUnknown => 14
  | .noTag => 15
  | .tableChange => 16

def RoundKind.code : RoundKind → Nat
  | .new => 0
  | .due => 1
  | .sweep => 2
  | .manual => 3

/-- Pending request: 0 none, 1 IDENT, 2 NEW, 3 DUE. -/
def pendingCode : Option RequestKind → Nat
  | none => 0
  | some .ident => 1
  | some .new => 2
  | some .due => 3

def WatchForm.code : WatchForm → Nat
  | .allSet => 0
  | .allClear => 1

def GateAction.code : GateAction → Nat
  | .pass => 0
  | .clamp => 1
  | .block => 2

/-- The action of a policy code; none for a code the table does not list. -/
def gateActionOf (code : Nat) : Option GateAction :=
  if code = 0 then some .pass else if code = 1 then some .clamp else if code = 2 then some .block else none

def Framing.code : Framing → Nat
  | .notSet => 0
  | .short => 1
  | .long => 2

def ResetCause.code : ResetCause → Nat
  | .none => 0
  | .power => 1
  | .pin => 2
  | .line => 3

def KeyOp.code : KeyOp → Nat
  | .idle => 0
  | .programming _ _ _ => 1
  | .erasing _ _ => 2
  | .protecting _ _ => 3
  | .epochUpdate _ => 4

def KeyResult.code : KeyResult → Nat
  | .none => 0
  | .programmed => 1
  | .programFaulty => 2
  | .erased => 3
  | .eraseFaulty => 4
  | .protectDone => 5

def KeySlot.code : KeySlot → Nat
  | .blank => 0
  | .programmed _ => 1
  | .faulty => 2

end Sys2Proof.Machine
end

