-- ==== Sys2Proof/Machine/Bytes.lean ====
section
/-! DEFINITION. Byte order, flag bytes, the check sequence (R132) and the building of telegrams. -/

namespace Sys2Proof.Machine

/-- The `n` big-endian bytes of a value: the most significant first (00, Conventions). -/
def be : Nat → Nat → Bytes
  | 0, _ => []
  | n + 1, v => BitVec.ofNat 8 (v / 256 ^ n) :: be n v

/-- The value of big-endian bytes. -/
def beNat (bs : Bytes) : Nat := bs.foldl (fun a b => a * 256 + b.toNat) 0

/-- The two bytes of a signed 16-bit field, in two's complement (08, Layouts). -/
def beSigned (v : Int) : Bytes := be 2 (BitVec.ofInt 16 v).toNat

/-- The value of a signed 16-bit field. -/
def signedNat (bs : Bytes) : Int := (BitVec.ofNat 16 (beNat bs)).toInt

/-- The `n` bytes of `bs` from offset `off` on. -/
def field (off n : Nat) (bs : Bytes) : Bytes := (bs.drop off).take n

/-- The value of an unsigned field. -/
def fieldNat (off n : Nat) (bs : Bytes) : Nat := beNat (field off n bs)

/-- One bit of a flag byte. -/
def flagBit (b : Bool) (bit : Nat) : Nat := if b then 2 ^ bit else 0

/-- A 48-bit set of positions: index `i` (position `i + 1`) stands at bit `i` (R153). -/
def positionSet (has : Pos → Bool) : Bytes :=
  be 6 ((List.finRange 48).foldl (fun a i => a + flagBit (has i) i.val) 0)

/-! ### Check sequence (R132) -/

/-- One data bit enters the check register. -/
def crcBit (r : BitVec 16) (b : Bool) : BitVec 16 :=
  if r.msb != b then (r <<< 1) ^^^ 0x1021#16 else r <<< 1

/-- One byte enters, bit 7 first. -/
def crcByte (r : BitVec 16) (x : Byte) : BitVec 16 :=
  [7, 6, 5, 4, 3, 2, 1, 0].foldl (fun r i => crcBit r (x.getLsbD i)) r

/-- The check register over bytes, from every bit set. -/
def checkRegister (bs : Bytes) : BitVec 16 := bs.foldl crcByte 0xFFFF#16

/-- The bytes of a telegram with their check sequence after them. -/
def withCheck (bs : Bytes) : Bytes := bs ++ be 2 (checkRegister bs).toNat

/-- A telegram is good when the register over all its bytes ends at 0. -/
def checkGood (bs : Bytes) : Bool := checkRegister bs == 0

/-! ### Telegrams the part originates -/

/-- A service telegram (08, Layouts), with its payload length and check sequence. -/
def serviceTelegram (node origin tag code : Byte) (payload : Bytes) : Bytes :=
  withCheck (kindService :: node :: origin :: tag :: code :: BitVec.ofNat 8 payload.length :: payload)

/-- The number of a position as a byte. -/
def posByte (p : Pos) : Byte := BitVec.ofNat 8 (p.val + 1)

/-- The position a byte names, 1 to 48. -/
def posOfNumber (n : Nat) : Option Pos :=
  if h : 1 ≤ n ∧ n ≤ 48 then some ⟨n - 1, by omega⟩ else none

end Sys2Proof.Machine
end

