-- ==== Sys2Proof/Machine/Fold.lean ====
section
/-! DEFINITION. The fold unit FOLD (04): the key words, the message words, the rounds, the response word and the check
value. -/

namespace Sys2Proof.Machine

/-- Key word k0 to k3: four consecutive bytes of the key, the lower-numbered the most significant (R82). -/
def keyWord (key : Key) (i : Nat) : Word32 := key.extractLsb' (96 - 32 * i) 32

/-- The two working words (R84). -/
structure FoldWords where
  a : Word32
  b : Word32
deriving DecidableEq, Repr

/-- The four steps of a round with the word `m` and the key word `k` (R84). -/
def foldRound (m k : Word32) (w : FoldWords) : FoldWords :=
  let a1 := w.a + m
  let a2 := a1.rotateLeft 5 ^^^ w.b
  let b3 := w.b + a2 + k
  { a := a2, b := b3.rotateLeft 11 }

/-- The words added in step 1 and in step 3 of the ten rounds, in order (R85). -/
def foldSchedule (key : Key) (m0 m1 m2 m3 m4 m5 : Word32) : List (Word32 × Word32) :=
  let k := keyWord key
  [(m0, k 2), (m1, k 3), (m2, k 0), (m3, k 1), (m4, k 2), (m5, k 3), (k 0, k 2), (k 1, k 3), (k 2, k 0), (k 3, k 1)]

/-- F(key, m0..m5): six message rounds and four finishing rounds from a = k0, b = k1; the response word is a
exclusive-or b (R84, R85). -/
def foldWord (key : Key) (m0 m1 m2 m3 m4 m5 : Word32) : Word32 :=
  let w := (foldSchedule key m0 m1 m2 m3 m4 m5).foldl (fun w r => foldRound r.1 r.2 w)
    { a := keyWord key 0, b := keyWord key 1 }
  w.a ^^^ w.b

/-- The response word expected for a nonce, an identity and an odometer (R83, R86). -/
def responseWord (key : Key) (nonce : Nonce) (id : Identity) (odo : Word32) : Word32 :=
  foldWord key (nonce.extractLsb' 32 32) (nonce.extractLsb' 0 32) (id.serial.extractLsb' 16 32)
    (id.serial.extractLsb' 0 16 ++ id.cls) odo (id.lot.zeroExtend 32)

/-- The check value of a PROGRAMMED slot; 0 for a BLANK or FAULTY one (R87). -/
def checkValue : KeySlot → Word32
  | .programmed key => foldWord key 0 0 0 0 0 0
  | .blank => 0
  | .faulty => 0

end Sys2Proof.Machine
end

