-- ==== Sys2Proof/Machine/Layout.lean ====
section
/-! DEFINITION. The entries of the tables, the notice and the attention bytes (08, Layouts and code values, R153): how each
is written, and how the entries a request carries are read, with the field tests of R107, R159, R161 and R169. -/

namespace Sys2Proof.Machine

/-! ### POSITION-CONFIG, 8 bytes -/

/-- The slot size POSITION-CONFIG entries are tested against: 4 while SHORT, else 8 (R161). -/
def Framing.testSize : Framing → Nat
  | .notSet => 8
  | .short => 4
  | .long => 8

def encodeConfig (c : PosConfig) : Bytes :=
  be 1 (if c.enabled then 1 else 0) ++ be 1 c.settleCycles ++ be 1 c.watchForm.code ++ be 1 c.gateOffset ++
    be 2 c.watchMask.toNat ++ be 1 c.gateLength ++
    be 1 (match c.clampOffset with
      | none => 0
      | some o => 128 + o)

/-- A POSITION-CONFIG entry that passes the tests of R161 for a slot size. -/
def decodeConfig (size : Nat) (b : Bytes) : Option PosConfig :=
  let enabled := fieldNat 0 1 b
  let settle := fieldNat 1 1 b
  let form := fieldNat 2 1 b
  let offset := fieldNat 3 1 b
  let mask := fieldNat 4 2 b
  let length := fieldNat 6 1 b
  let clamp := fieldNat 7 1 b
  if enabled ≤ 1 ∧ form ≤ 1 ∧ settle ≠ 0 ∧ mask < 2 ^ 14 ∧ 1 ≤ length ∧ length ≤ 4 ∧ offset + length ≤ size ∧
      (clamp = 0 ∨ (128 ≤ clamp ∧ clamp ≤ 134 ∧ clamp - 128 + 2 ≤ size)) then
    some { enabled := enabled = 1, settleCycles := settle, watchForm := if form = 0 then .allSet else .allClear,
           watchMask := BitVec.ofNat 14 mask, gateOffset := offset, gateLength := length,
           clampOffset := if clamp = 0 then none else some (clamp - 128) }
  else none

/-! ### CLASS, 48 bytes -/

def encodeClass (e : ClassEntry) : Bytes :=
  be 2 e.code.toNat ++ be 1 e.keySlot.val ++ be 1 e.repeatCount ++ be 2 e.sweepPeriod ++ be 1 e.strokeCap ++
    be 1 e.policyCf.code ++ be 1 e.policyPending.code ++ be 1 e.policyWorn.code ++ be 2 e.clampValue ++
    beSigned e.wPass ++ beSigned e.wOdoOk ++ beSigned e.wFail ++ beSigned e.wNoAnswer ++ beSigned e.wDup ++
    beSigned e.wAhead ++ be 1 e.lagRate ++ be 1 e.slack ++ be 2 e.lagCap ++ be 2 e.odoTol ++ be 4 e.lifeLimit ++
    be 1 (if e.failLatch then 1 else 0) ++ be 1 e.decayStep ++ beSigned e.tGen ++ beSigned e.tCf ++ be 2 e.hyst ++
    be 2 e.decayPeriod ++ be 4 0

/-- The fields of a CLASS entry whose code is not 0, as the layout places them; the policies as given. -/
def classFields (b : Bytes) (cf pending worn : GateAction) : ClassEntry :=
  { code := BitVec.ofNat 16 (fieldNat 0 2 b), keySlot := Fin.ofNat 16 (fieldNat 2 1 b), repeatCount := fieldNat 3 1 b,
    sweepPeriod := fieldNat 4 2 b, strokeCap := fieldNat 6 1 b, policyCf := cf, policyPending := pending,
    policyWorn := worn, clampValue := fieldNat 10 2 b, wPass := signedNat (field 12 2 b),
    wOdoOk := signedNat (field 14 2 b), wFail := signedNat (field 16 2 b), wNoAnswer := signedNat (field 18 2 b),
    wDup := signedNat (field 20 2 b), wAhead := signedNat (field 22 2 b), lagRate := fieldNat 24 1 b,
    slack := fieldNat 25 1 b, lagCap := fieldNat 26 2 b, odoTol := fieldNat 28 2 b, lifeLimit := fieldNat 30 4 b,
    failLatch := fieldNat 34 1 b = 1, decayStep := fieldNat 35 1 b, tGen := signedNat (field 36 2 b),
    tCf := signedNat (field 38 2 b), hyst := fieldNat 40 2 b, decayPeriod := fieldNat 42 2 b }

/-- The ranges of R30 and R159 for an entry that names a class. -/
def ClassEntry.inRange (e : ClassEntry) : Bool :=
  e.repeatCount ≤ 3 && e.strokeCap ≠ 0 && 0 ≤ e.wPass && e.wPass ≤ 1000 && 0 ≤ e.wOdoOk && e.wOdoOk ≤ 1000 &&
    -1000 ≤ e.wFail && e.wFail ≤ 0 && -1000 ≤ e.wNoAnswer && e.wNoAnswer ≤ 0 && -1000 ≤ e.wDup && e.wDup ≤ 0 &&
    -1000 ≤ e.wAhead && e.wAhead ≤ 0 && e.lagRate ≤ 100 && e.lagCap ≤ 1000 && e.decayStep ≤ 100 && 1 ≤ e.tGen &&
    e.tGen ≤ 1000 && -1000 ≤ e.tCf && e.tCf ≤ -1 && e.hyst ≤ 500 && 2 * (e.hyst : Int) < e.tGen - e.tCf

/-- A CLASS entry that passes the tests of R159: 48 zero bytes are an empty entry (R158). -/
def decodeClass (b : Bytes) : Option ClassEntry :=
  if fieldNat 0 2 b = 0 then
    if b.all (· == 0) then some ClassEntry.empty else none
  else
    match gateActionOf (fieldNat 7 1 b), gateActionOf (fieldNat 8 1 b), gateActionOf (fieldNat 9 1 b) with
    | some cf, some pending, some worn =>
      let e := classFields b cf pending worn
      if fieldNat 2 1 b ≤ 15 ∧ fieldNat 34 1 b ≤ 1 ∧ fieldNat 44 4 b = 0 ∧ e.inRange = true then some e else none
    | _, _, _ => none

/-! ### SETUP, 16 bytes -/

def encodeSetup (p : Setup) : Bytes :=
  be 1 p.positionCount ++ be 1 p.gapSlots ++ be 1 p.verifierSlots ++ be 1 p.answerTimeout ++ be 2 p.stillTimeout ++
    be 1 p.lostCycles ++ be 1 p.unknownPolicy.code ++ be 2 p.undecidedRetry ++ be 2 p.unknownClamp ++
    be 1 p.defaultStrokeCap ++ be 3 0

/-- The ranges of R168. -/
def Setup.inRange (p : Setup) : Bool :=
  1 ≤ p.positionCount && p.positionCount ≤ 48 && 2 ≤ p.gapSlots && p.gapSlots ≤ 16 && 1 ≤ p.verifierSlots &&
    p.verifierSlots < p.gapSlots && 2 ≤ p.answerTimeout && p.answerTimeout ≤ 250 && 5 ≤ p.stillTimeout &&
    p.stillTimeout ≤ 1000 && 1 ≤ p.lostCycles && p.lostCycles ≤ 255 && 1 ≤ p.undecidedRetry &&
    p.undecidedRetry ≤ 65535 && p.unknownClamp ≤ 65535 && 1 ≤ p.defaultStrokeCap && p.defaultStrokeCap ≤ 255

/-- A SETUP entry that passes the tests of R169. -/
def decodeSetup (b : Bytes) : Option Setup :=
  match gateActionOf (fieldNat 7 1 b) with
  | none => none
  | some policy =>
    let p : Setup :=
      { positionCount := fieldNat 0 1 b, gapSlots := fieldNat 1 1 b, verifierSlots := fieldNat 2 1 b,
        answerTimeout := fieldNat 3 1 b, stillTimeout := fieldNat 4 2 b, lostCycles := fieldNat 6 1 b,
        unknownPolicy := policy, undecidedRetry := fieldNat 8 2 b, unknownClamp := fieldNat 10 2 b,
        defaultStrokeCap := fieldNat 12 1 b }
    if p.inRange ∧ fieldNat 13 3 b = 0 then some p else none

/-! ### REVOCATION, 12 bytes -/

def encodeRevocation (e : Revocation) : Bytes :=
  be 2 e.cls.toNat ++ be 3 e.lot.toNat ++
    (match e.scope with
      | .wholeLot => be 1 0 ++ be 6 0
      | .serial s => be 1 1 ++ be 6 s.toNat)

/-- The entry of a REVOKE-INSERT or REVOKE-REMOVE that passes the range test of R107. -/
def decodeRevocation (b : Bytes) : Option Revocation :=
  let cls := fieldNat 0 2 b
  let scope := fieldNat 5 1 b
  let serial := fieldNat 6 6 b
  if cls = 0 ∨ cls = 65535 ∨ 1 < scope ∨ (scope = 0 ∧ serial ≠ 0) then none
  else some { cls := BitVec.ofNat 16 cls, lot := BitVec.ofNat 24 (fieldNat 2 3 b),
              scope := if scope = 0 then .wholeLot else .serial (BitVec.ofNat 48 serial) }

/-! ### Entries and records the part only writes -/

/-- POSITION-STATE, 32 bytes. -/
def encodeRuntime (r : Runtime) : Bytes :=
  be 1 (r.phase.code * 16 + r.verdict.code) ++
    be 1 (match r.reason with
      | none => 0
      | some x => x.code) ++
    be 1 (flagBit r.latch 7 + flagBit r.worn 6 + flagBit r.released 5 + flagBit r.keyMissing 4 + flagBit r.strokeJump 3 +
      flagBit r.identity.isSome 2 + flagBit r.classIndex.isSome 1 + flagBit r.odoRef.isSome 0) ++
    be 1 (r.roundKind.code * 64 + r.remaining * 8 + pendingCode r.pendingRequest * 2 + flagBit r.lastOdo.isSome 0) ++
    beSigned r.score ++
    (match r.identity with
      | none => be 6 0 ++ be 2 0
      | some i => be 6 i.serial.toNat ++ be 2 i.cls.toNat) ++
    be 4 r.strokes ++
    (match r.odoRef with
      | none => be 4 0 ++ be 4 0
      | some o => be 4 o.odo.toNat ++ be 4 o.strokes) ++
    be 4 (match r.lastOdo with
      | none => 0
      | some o => o.toNat) ++
    be 2 r.decayCount

/-- SIGHTING, 24 bytes; an unused entry reads 0 throughout (R101). -/
def encodeSighting : Option Sighting → Bytes
  | none => be 24 0
  | some e =>
    be 1 (128 + flagBit e.lastOdo.isSome 6) ++ be 1 0 ++ be 2 e.cls.toNat ++ be 6 e.serial.toNat ++
      be 4 (match e.lastOdo with
        | none => 0
        | some o => o.toNat) ++
      positionSet (fun p => e.holders.contains p) ++ be 4 0

/-- REVOCATION as read; an unused entry reads 0 throughout (R113). -/
def encodeRevocationView : Option Revocation → Bytes
  | none => be 12 0
  | some e => encodeRevocation e

/-- A notice, 16 bytes. -/
def encodeNotice (n : Notice) : Bytes :=
  [posByte n.position] ++ be 1 (n.before.code * 16 + n.after.code) ++ be 1 n.reason.code ++ be 1 0 ++ be 2 n.cls.toNat ++
    be 6 n.serial.toNat ++ beSigned n.score ++ be 2 n.cycle.toNat

/-- The key store byte of the status slot and of DEVICE. -/
def keyStoreByte (k : KeyStore) : Byte := BitVec.ofNat 8 (k.op.code * 16 + k.lastResult.code)

/-- KEY-STATUS, 80 bytes: the state and check value of each slot (R87, R188). -/
def encodeKeyStatus (k : KeyStore) : Bytes :=
  k.slots.toList.flatMap (fun slot => be 1 slot.code ++ be 4 (checkValue slot).toNat)

/-- DEVICE, 16 bytes (R157). -/
def encodeDevice (cause : ResetCause) (k : KeyStore) : Bytes :=
  be 2 0x5D21 ++ be 2 0x0048 ++ be 1 1 ++ be 1 cause.code ++ be 4 k.epoch.toNat ++ be 1 k.boundary ++ [keyStoreByte k] ++
    be 4 0

/-! ### Attention flags and mask: bit 0 NOTICE to bit 4 FRAMING -/

def encodeAttention (a : Attention) : Byte :=
  BitVec.ofNat 8 (flagBit a.notice 0 + flagBit a.overrun 1 + flagBit a.keyDone 2 + flagBit a.keyMissing 3 +
    flagBit a.framing 4)

/-- The flags of bits 0 to 4 of a byte. -/
def attentionOf (b : Byte) : Attention :=
  { notice := b.getLsbD 0, overrun := b.getLsbD 1, keyDone := b.getLsbD 2, keyMissing := b.getLsbD 3,
    framing := b.getLsbD 4 }

end Sys2Proof.Machine
end

