-- ==== Sys2Proof/Machine/Operands.lean ====
section
/-! DEFINITION. What a command's bytes say: the service telegram and its tests (R144), the cycle telegram and return
headers (R134, R137), the input slots (R7) and the operands of node replies (08, Node payloads used by the ZL48). -/

namespace Sys2Proof.Machine

/-- A service telegram that has passed R144. -/
structure Service where
  node : Byte
  origin : Byte
  tag : Byte
  code : Byte
  payload : Bytes
deriving DecidableEq, Repr

/-- The tests of R144 on a SERVICE telegram, its kind byte included; none is a discard. -/
def parseService (bytes : Bytes) : Option Service :=
  match bytes with
  | _ :: node :: origin :: tag :: code :: len :: rest =>
    if checkGood bytes ∧ rest.length = len.toNat + 2 ∧ len.toNat ≤ Config.payloadLimit ∧
        (origin = originMaster ∨ origin = originVerifier) ∧ tag.toNat ≤ 15 ∧ node.toNat ≤ 48 then
      some { node, origin, tag, code, payload := rest.take len.toNat }
    else none
  | _ => none

end Sys2Proof.Machine

namespace Sys2Proof

/-- The whole telegram of a frame whose node, origin and code the row fixes. -/
def Frame.telegram (node origin code : Byte) (f : Frame) : Bytes :=
  [Machine.kindService, node, origin, f.tag, code, f.length] ++ f.payload ++ Machine.be 2 f.check.toNat

/-- The frame's telegram passes the tests of R144. -/
def Frame.good (node origin code : Byte) (f : Frame) : Bool :=
  (Machine.parseService (f.telegram node origin code)).isSome

end Sys2Proof

namespace Sys2Proof.Machine

/-! ### Cycle telegrams and returns -/

/-- The header of a CYCLE or CYCLE-RETURN, from the telegram after its kind byte (08, Cycle telegram and return). -/
structure CycleHeader where
  cycleNumber : BitVec 16
  slotCount : Nat
  slotSize : Nat
deriving DecidableEq, Repr

def cycleHeader (body : Bytes) : CycleHeader :=
  { cycleNumber := BitVec.ofNat 16 (fieldNat 0 2 body), slotCount := fieldNat 2 1 body, slotSize := fieldNat 3 1 body }

/-- The length of a whole telegram with this header: 5 header bytes, the slots, 2 check bytes (R134). -/
def CycleHeader.telegramLength (h : CycleHeader) : Nat := 5 + h.slotCount * h.slotSize + 2

/-- The length agrees with the header, which is there. -/
def lengthAgrees (body : Bytes) : Bool :=
  4 ≤ body.length && body.length + 1 == (cycleHeader body).telegramLength

/-- The framing a slot size locks (R133). -/
def framingOf (slotSize : Nat) : Option Framing :=
  if slotSize = 4 then some .short else if slotSize = 8 then some .long else none

/-- The framing under which a CYCLE telegram is good, or none where it is discarded (R133, R134). -/
def cycleFraming (framing : Framing) (body : Bytes) : Option Framing :=
  let h := cycleHeader body
  if checkGood (kindCycle :: body) ∧ lengthAgrees body ∧ 1 ≤ h.slotCount ∧ h.slotCount ≤ 64 then
    match framingOf h.slotSize with
    | some g => if framing = .notSet ∨ framing = g then some g else none
    | none => none
  else none

/-- The bytes of slot `k` (0 for the first) of a telegram after its kind byte. -/
def slotBytes (h : CycleHeader) (k : Nat) (body : Bytes) : Bytes := field (4 + k * h.slotSize) h.slotSize body

/-- A position's input on a return (R7). -/
inductive Input where
  | present (stationBits : BitVec 14) (counter : BitVec 16)
  | absent
  | missing
deriving DecidableEq, Repr

/-- The kind of an input slot (R7; 08, Input slot). -/
def inputOfSlot (slot : Bytes) : Input :=
  let status := BitVec.ofNat 16 (fieldNat 0 2 slot)
  if status.getLsbD 15 = false then .missing
  else if status.getLsbD 14 = false then .absent
  else .present (status.setWidth 14) (BitVec.ofNat 16 (fieldNat 2 2 slot))

/-- The input of a position on a taken return: MISSING where the slot is not there (R7). -/
def inputOf (body : Bytes) (p : Pos) : Input :=
  let h := cycleHeader body
  if p.val < h.slotCount then inputOfSlot (slotBytes h p.val body) else .missing

/-- The watch condition on the station bits (R3). -/
def watchHolds (c : PosConfig) (stationBits : BitVec 14) : Bool :=
  match c.watchForm with
  | .allSet => stationBits &&& c.watchMask == c.watchMask
  | .allClear => stationBits &&& c.watchMask == 0

/-! ### Payloads of node replies -/

/-- IDENT: serial, class, lot. -/
def identityOf (payload : Bytes) : Identity :=
  { serial := BitVec.ofNat 48 (fieldNat 0 6 payload), cls := BitVec.ofNat 16 (fieldNat 6 2 payload),
    lot := BitVec.ofNat 24 (fieldNat 8 3 payload) }

/-- ANSWER: nonce echo, odometer, response word. -/
structure AnswerWords where
  echo : Nonce
  odo : Word32
  response : Word32
deriving DecidableEq, Repr

def answerOf (payload : Bytes) : AnswerWords :=
  { echo := BitVec.ofNat 64 (fieldNat 0 8 payload), odo := BitVec.ofNat 32 (fieldNat 8 4 payload),
    response := BitVec.ofNat 32 (fieldNat 12 4 payload) }

/-- The 16 key bytes of a KEY-PROGRAM payload as a key (R82). -/
def keyOf (payload : Bytes) : Key := BitVec.ofNat 128 (fieldNat 1 16 payload)

end Sys2Proof.Machine
end

