-- ==== Sys2Proof/Machine/Flags.lean ====
section
/-! DEFINITION. The attention flags and their summary (R173), the counts of R53 and the status slot (R151). -/

namespace Sys2Proof.Machine

def latchNotice (s : State) : State := { s with mgt.attention.notice := true }
def latchOverrun (s : State) : State := { s with mgt.attention.overrun := true }
def latchKeyDone (s : State) : State := { s with mgt.attention.keyDone := true }
def latchKeyMissing (s : State) : State := { s with mgt.attention.keyMissing := true }
def latchFraming (s : State) : State := { s with mgt.attention.framing := true }

/-- The summary indication: some latched flag has its mask bit clear (R173). -/
def summary (flags mask : Attention) : Bool :=
  (flags.notice && !mask.notice) || (flags.overrun && !mask.overrun) || (flags.keyDone && !mask.keyDone) ||
    (flags.keyMissing && !mask.keyMissing) || (flags.framing && !mask.framing)

/-- The number of positions whose verdict satisfies a test (R53). -/
def countVerdict (test : Verdict → Bool) (s : State) : Nat := s.run.toList.countP (fun r => test r.verdict)

def genuineCount (s : State) : Nat := countVerdict (fun v => v == .genuine) s

/-- COUNTERFEIT or REVOKED. -/
def adverseCount (s : State) : Nat := countVerdict (fun v => v == .counterfeit || v == .revoked) s

def undecidedCount (s : State) : Nat := countVerdict (fun v => v == .undecided) s

/-- The flags byte of the status slot. -/
def statusFlags (damaged : Bool) (s : State) : Byte :=
  BitVec.ofNat 8 (flagBit (s.device = .running) 7 + s.fwd.framing.code * 32 + flagBit s.mgt.hold 4 +
    flagBit s.mgt.setupLock 3 + flagBit (summary s.mgt.attention s.mgt.mask) 2 + flagBit damaged 1 +
    flagBit (s.fwd.masterQueue.length = Config.masterQueueCapacity) 0)

/-- The 14-byte status slot as the state stands (R151; 08, Status slot). -/
def statusSlot (damaged : Bool) (s : State) : Bytes :=
  [statusFlags damaged s] ++ be 1 s.mgt.notices.length ++ be 1 (genuineCount s) ++ be 1 (adverseCount s) ++
    be 1 (undecidedCount s) ++ [keyStoreByte s.kst] ++ be 2 s.fwd.cycleCount.toNat ++
    positionSet (fun p => s.gatedMap[p])

/-- The trailer of every return sent on port U: the trailer length byte, 14, and the status slot (R151). -/
def trailer (damaged : Bool) (s : State) : Bytes := be 1 14 ++ statusSlot damaged s

end Sys2Proof.Machine
end

