-- ==== Sys2Proof/Machine/Ops.lean ====
section
/-! DEFINITION. The operations the meanings share: when the part acts at all, records by position, notices, sending on the
ports, the request queue, abandoning and ending a position's work, and the free order of positions. -/

namespace Sys2Proof.Machine

/-- The part takes telegrams and counts ticks: it has power and the RESET line is released (R192). -/
def State.live (s : State) : Bool := s.supply = .on && !s.resetAsserted

/-- An event acts while the part is live and is lost otherwise (R192). -/
def whenLive (f : State → State) (s : State) : Host.Outcome State Fault Refusal :=
  .next (if s.live = true then f s else s)

/-! ### Position records and classes -/

/-- Change the runtime half of one position. -/
def modRun (p : Pos) (f : Runtime → Runtime) (s : State) : State :=
  { s with run := s.run.set p.val (f s.run[p]) p.isLt }

/-- The Class Table entry a runtime half names (R30). -/
def classOf (s : State) (r : Runtime) : Option ClassEntry :=
  match r.classIndex with
  | none => none
  | some i => some s.mgt.classes[i]

/-- The index of the entry whose code a class is; code 0 is never found (R19). -/
def findClass (classes : Vector ClassEntry 32) (code : Code) : Option ClassIdx :=
  if code = 0 then none else (List.finRange 32).find? (fun i => classes[i].code == code)

/-! ### Notices (R171) -/

/-- A notice joins the queue: NOTICE latches on an empty queue, OVERRUN where the queue is full. -/
def addNotice (n : Notice) (s : State) : State :=
  if s.mgt.notices.length < Config.noticeCapacity then
    let t : State := { s with mgt.notices := s.mgt.notices ++ [n] }
    if s.mgt.notices.isEmpty then latchNotice t else t
  else latchOverrun s

/-- The notice of a verdict change at a position: class and serial are those of the identity given, 0 where there is
none (R52). -/
def noticeFor (p : Pos) (before after : Verdict) (reason : Reason) (id : Option Identity) (score : Int) (s : State) :
    Notice :=
  { position := p, before, after, reason,
    cls := match id with
      | none => 0
      | some i => i.cls,
    serial := match id with
      | none => 0
      | some i => i.serial,
    score, cycle := s.fwd.cycleCount.setWidth 16 }

/-- The notice of a position whose verdict was `before`, produced when its verdict now differs (R47, R52). -/
def notifyChange (p : Pos) (before : Verdict) (reason : Reason) (s : State) : State :=
  let r := s.run[p]
  if r.verdict = before then s else addNotice (noticeFor p before r.verdict reason r.identity r.score s) s

/-! ### Port U (R149) -/

/-- The telegrams of port U in the order in which they became ready: the one in sending, then those waiting. -/
def portU (s : State) : List Upstream := s.fwd.uSending.toList ++ s.fwd.uReady

/-- A telegram becomes ready for port U: it begins to be sent where nothing is before it, and waits its turn otherwise. -/
def emitU (bytes : Bytes) (opensGap : Bool) (s : State) : State :=
  if s.fwd.uSending = none ∧ s.fwd.uReady = [] then { s with fwd.uSending := some { bytes, opensGap } }
  else { s with fwd.uReady := s.fwd.uReady ++ [{ bytes, opensGap }] }

/-- MGT's reply to a request to node 0 (R154). -/
def replyTelegram (tag code : Byte) (payload : Bytes) : Bytes := serviceTelegram 0 originMaster tag code payload

/-- MGT answers on port U. -/
def reply (tag code : Byte) (payload : Bytes) (s : State) : State := emitU (replyTelegram tag code payload) false s

/-- OK with a payload. -/
def replyOk (tag : Byte) (payload : Bytes) (s : State) : State := reply tag codeOk payload s

/-- ACCEPTED. -/
def replyAccepted (tag : Byte) (s : State) : State := reply tag codeAccepted [] s

/-- REFUSED with a cause; a refused request changes no state (R154). -/
def refuse (tag : Byte) (cause : Cause) (s : State) : State := reply tag codeRefused [cause.code] s

/-! ### Records of the scheduler -/

/-- The position holds a transaction record (R57). -/
def hasRecord (s : State) (p : Pos) : Bool :=
  s.sch.records.toList.any (fun r => match r with
    | none => false
    | some x => x.position == p)

/-- The position has a request queue entry (R57). -/
def hasEntry (s : State) (p : Pos) : Bool := s.sch.queue.any (fun e => e.position == p)

/-- Change what a record place holds. -/
def setRecord (i : RecNo) (r : Option Record) (s : State) : State :=
  { s with sch.records := s.sch.records.set i.val r i.isLt }

/-- Free the record a position holds, whatever its state. -/
def freeRecordOf (p : Pos) (s : State) : State :=
  { s with sch.records := s.sch.records.map (fun r => match r with
      | none => none
      | some x => if x.position = p then none else some x) }

/-- The request queue with an entry put in: IDENT and NEW after the last IDENT or NEW entry, DUE at the tail (R56). -/
def enqueue (e : Request) (q : List Request) : List Request :=
  match e.kind with
  | .due => q ++ [e]
  | .ident => q.takeWhile (fun x => x.kind != .due) ++ e :: q.dropWhile (fun x => x.kind != .due)
  | .new => q.takeWhile (fun x => x.kind != .due) ++ e :: q.dropWhile (fun x => x.kind != .due)

/-- A block asks for a request (R57): it is queued unless the position already has an entry or a record; `round` is the
round kind it sets, none where the table leaves it unchanged. -/
def ask (p : Pos) (kind : RequestKind) (round : Option RoundKind) (s : State) : State :=
  if hasEntry s p || hasRecord s p then s
  else
    let t := modRun p (fun r => { r with pendingRequest := some kind, roundKind := round.getD r.roundKind }) s
    { t with sch.queue := enqueue { position := p, kind } t.sch.queue }

/-- A HELD position is called to CHALLENGING by a DUE entry (R21, R57). -/
def callDue (p : Pos) (round : RoundKind) (s : State) : State :=
  ask p .due (some round) (modRun p (fun r => { r with phase := .challenging, sweepAge := 0 }) s)

/-- A position goes to CHALLENGING with a NEW request (R19, R51). -/
def callNew (p : Pos) (s : State) : State :=
  ask p .new (some .new) (modRun p (fun r => { r with phase := .challenging, sweepAge := 0 }) s)

/-- Abandonment of a position's work: record and queue entry go, without evidence (R76). -/
def abandon (p : Pos) (s : State) : State :=
  let t := freeRecordOf p s
  let u := modRun p (fun r => { r with pendingRequest := none, remaining := 0 }) t
  { u with sch.queue := u.sch.queue.filter (fun e => e.position != p) }

/-- The end of a round: remaining challenges 0, its record freed, HELD (R60, R22). -/
def endRound (p : Pos) (s : State) : State :=
  modRun p (fun r => { r with remaining := 0, phase := .held }) (freeRecordOf p s)

/-! ### Free order of positions (LOG 8) -/

/-- The positions in the order of their ranks, equal ranks in ascending order. -/
def positionsBy (rank : Pos → Nat) : List Pos :=
  (List.finRange 48).insertionSort (fun a b => rank a ≤ rank b)

/-- Handle every position once, in the free order of this event, and pass to the next free index. -/
def handleAll (f : Pos → State → State) (s : State) : State :=
  let t := (positionsBy (Config.handlingRank s.freeIndex)).foldl (fun t p => f p t) s
  { t with freeIndex := s.freeIndex + 1 }

/-- Serve every position once in ascending order. -/
def serveAll (f : Pos → State → State) (s : State) : State := (List.finRange 48).foldl (fun t p => f p t) s

end Sys2Proof.Machine
end

