-- ==== Sys2Proof/Machine/Clock.lean ====
section
/-! DEFINITION. The part's own time base: one tick of 1 ms (00, Conventions). -/

namespace Sys2Proof.Machine

/-- One tick passes: the tick count and a running still timer rise by one. While the RESET line is held or without power
no tick counts (R192). LOG 2. -/
def tick (s : State) : State :=
  if s.live = true then
    { s with now := s.now + 1, fwd.stillTimer := match s.fwd.stillTimer with
        | none => none
        | some n => some (n + 1) }
  else s

end Sys2Proof.Machine
end

