-- ==== Sys2Proof/Machine/Cache.lean ====
section
/-! DEFINITION. The sighting cache SGT (05) and the revocation list RVL (06): lookup, insertion and eviction, holders,
the last odometer, and the ordered list with its matching. -/

namespace Sys2Proof.Machine

/-! ### Sighting cache -/

/-- Change the first entry that satisfies a test and move it to the front of the recency order (R92). -/
def touchFirst (test : Sighting → Bool) (f : Sighting → Sighting) (l : List Sighting) : List Sighting :=
  match l.find? test with
  | none => l
  | some e => f e :: l.eraseP test

/-- The entry of a class and serial (R91). -/
def Sighting.hasKey (cls : Code) (serial : Serial) (e : Sighting) : Bool := e.cls == cls && e.serial == serial

/-- The entry whose holders list contains a position (R95). -/
def Sighting.heldBy (p : Pos) (e : Sighting) : Bool := e.holders.contains p

/-- A position joins an ascending holders list, once. -/
def addHolder (p : Pos) (holders : List Pos) : List Pos :=
  if holders.contains p then holders else holders.orderedInsert (fun a b => a ≤ b) p

/-- The cache less its least recently touched entry without holders (R94). -/
def evict (l : List Sighting) : List Sighting := (l.reverse.eraseP (fun e => e.holders.isEmpty)).reverse

/-- The sighting step at SGT (R93): the cache with the entry found or made, touched and joined. -/
def sight (p : Pos) (cls : Code) (serial : Serial) (l : List Sighting) : List Sighting :=
  match l.find? (Sighting.hasKey cls serial) with
  | some _ => touchFirst (Sighting.hasKey cls serial) (fun e => { e with holders := addHolder p e.holders }) l
  | none =>
    { cls, serial, lastOdo := none, holders := [p] } :: (if l.length < Config.sightingCapacity then l else evict l)

/-- The earlier holders a sighting step finds, in ascending order (R93, R96). -/
def earlierHolders (p : Pos) (cls : Code) (serial : Serial) (l : List Sighting) : List Pos :=
  match l.find? (Sighting.hasKey cls serial) with
  | some e => e.holders.filter (fun q => q != p)
  | none => []

/-- The last odometer of the entry a position holds (R100). -/
def sightedOdo (s : State) (p : Pos) : Option Word32 :=
  match s.sightings.find? (Sighting.heldBy p) with
  | none => none
  | some e => e.lastOdo

/-- The larger of an entry's last odometer and O (R99). -/
def raiseOdo (o : Word32) (old : Option Word32) : Word32 :=
  match old with
  | none => o
  | some l => if o < l then l else o

/-- The recording of an authenticated odometer at SGT (R99). -/
def recordSighting (p : Pos) (o : Word32) (s : State) : State :=
  { s with sightings := touchFirst (Sighting.heldBy p) (fun e => { e with lastOdo := some (raiseOdo o e.lastOdo) }) s.sightings }

/-- A holder leaves its entry, which is touched (R98). -/
def leaveSighting (p : Pos) (s : State) : State :=
  { s with sightings := touchFirst (Sighting.heldBy p) (fun e => { e with holders := e.holders.filter (fun q => q != p) }) s.sightings }

/-- Every holders list is emptied (R103). -/
def emptyHolders (l : List Sighting) : List Sighting := l.map (fun e => { e with holders := [] })

/-! ### Revocation list -/

/-- The place of a scope among the entries of one class and lot: WHOLE-LOT, then SERIAL by serial (R105). -/
def Scope.rank : Scope → Nat
  | .wholeLot => 0
  | .serial s => s.toNat + 1

/-- The key order of R105, field by field. -/
def Revocation.before (a b : Revocation) : Bool :=
  a.cls < b.cls || (a.cls == b.cls && (a.lot < b.lot || (a.lot == b.lot && a.scope.rank < b.scope.rank)))

/-- The matching test of R106 for one entry. -/
def Revocation.covers (e : Revocation) (i : Identity) : Bool :=
  e.cls == i.cls && e.lot == i.lot &&
    (match e.scope with
      | .wholeLot => true
      | .serial s => s == i.serial)

/-- The list reports a match (R106). -/
def isRevoked (l : List Revocation) (i : Identity) : Bool := l.any (fun e => e.covers i)

/-- The index at which a new entry stands: the number of entries before it (R107). -/
def revocationIndex (e : Revocation) (l : List Revocation) : Nat := (l.takeWhile (fun x => x.before e)).length

/-- The list with an entry at the place its key gives (R105). -/
def insertRevocation (e : Revocation) (l : List Revocation) : List Revocation :=
  l.takeWhile (fun x => x.before e) ++ e :: l.dropWhile (fun x => x.before e)

end Sys2Proof.Machine
end

