-- ==== Sys2Proof/Machine/Evidence.lean ====
section
/-! DEFINITION. The evidence unit EVD (02): score arithmetic, verdict evaluation, the kinds of evidence, the handling of a
challenge answer, decay and the forcing of verdicts. -/

namespace Sys2Proof.Machine

/-! ### Score and verdict -/

/-- One addition of a weight, clamped on its own (R29). -/
def addScore (c w : Int) : Int := max (-1000) (min 1000 (c + w))

/-- A decay step moves C toward 0 by the smaller of decay_step and |C| (R48). -/
def decayScore (step : Nat) (c : Int) : Int :=
  if 0 ≤ c then c - min (step : Int) c else c + min (step : Int) (-c)

/-- The verdict after an evaluation (R44). -/
def nextVerdict (e : ClassEntry) (c : Int) (before : Verdict) : Verdict :=
  match before with
  | .none => if c ≥ e.tGen then .genuine else if c ≤ e.tCf then .counterfeit else .undecided
  | .undecided => if c ≥ e.tGen then .genuine else if c ≤ e.tCf then .counterfeit else .undecided
  | .genuine => if c ≤ e.tCf then .counterfeit else if c < e.tGen - e.hyst then .undecided else .genuine
  | .counterfeit => if c ≥ e.tGen then .genuine else if c > e.tCf + e.hyst then .undecided else .counterfeit
  | .revoked => .revoked

/-- The change falls: to UNDECIDED, or out of GENUINE (R47). -/
def verdictFalls (before after : Verdict) : Bool := after == .undecided || before == .genuine

/-- The evaluation of a position's verdict at the end of an event (R44), with the notice and the DUE request of R47. A
latched position is not evaluated (R45); a position without a class has no thresholds (R44). -/
def evaluate (p : Pos) (reason : Reason) (s : State) : State :=
  let r := s.run[p]
  match classOf s r with
  | none => s
  | some e =>
    let v := nextVerdict e r.score r.verdict
    if r.latch = true ∨ v = r.verdict then s
    else
      let t := notifyChange p r.verdict reason
        (modRun p (fun x => { x with verdict := v, reason := some reason }) s)
      if r.phase = .held ∧ verdictFalls r.verdict v = true ∧ r.pendingRequest = none then callDue p .due t else t

/-- One piece of evidence: its weight is added and the decay count becomes 0 (R29). -/
def addEvidence (p : Pos) (w : Int) (s : State) : State :=
  modRun p (fun r => { r with score := addScore r.score w, decayCount := 0 }) s

/-- The forcing of a verdict: verdict, latch and reason, and a notice when the verdict changes (R46). -/
def force (p : Pos) (v : Verdict) (reason : Reason) (s : State) : State :=
  notifyChange p s.run[p].verdict reason
    (modRun p (fun r => { r with verdict := v, latch := true, reason := some reason }) s)

/-- ROLLBACK (R32): score -1000, COUNTERFEIT, latched. -/
def rollback (p : Pos) (s : State) : State :=
  force p .counterfeit .rollback (modRun p (fun r => { r with score := -1000, decayCount := 0 }) s)

/-! ### Odometer tests (R38 to R42) -/

/-- What the odometer tests of a passing answer find. -/
inductive OdoFinding where
  | firstPass
  | rolledBack
  | later (w : Int) (reason : Reason)
deriving DecidableEq, Repr

/-- The expected odometer E = O_ref + n, n the strokes since the reference (R39). -/
def expectedOdo (ref : OdoRef) (strokes : Nat) : Nat := ref.odo.toNat + (strokes - ref.strokes)

/-- The tolerance odo_tol + floor(n x slack / 256) (R39). -/
def tolerance (e : ClassEntry) (ref : OdoRef) (strokes : Nat) : Nat :=
  e.odoTol + (strokes - ref.strokes) * e.slack / 256

/-- The finding of a later pass (R40): LAG, AHEAD or ODO-OK, with its change of C. -/
def laterFinding (e : ClassEntry) (ref : OdoRef) (strokes o : Nat) : OdoFinding :=
  let expected := expectedOdo ref strokes
  let tol := tolerance e ref strokes
  if expected - o > tol then .later (-(min e.lagCap ((expected - o - tol) * e.lagRate) : Nat)) .lag
  else if o - expected > tol then .later e.wAhead .ahead
  else .later e.wOdoOk .odoOk

/-- The odometer test of a passing answer: against the sighting entry at the first pass of a seating (R38, R100), against
the position's reference later (R39). -/
def odoFinding (e : ClassEntry) (ref : Option OdoRef) (sighted : Option Word32) (strokes : Nat) (o : Word32) : OdoFinding :=
  match ref with
  | none =>
    match sighted with
    | none => .firstPass
    | some l => if o < l then .rolledBack else .firstPass
  | some x => if o < x.odo then .rolledBack else laterFinding e x strokes o.toNat

/-- The record of the odometer and the wear test (R41, R42). -/
def recordOdometer (p : Pos) (e : ClassEntry) (o : Word32) (s : State) : State :=
  modRun p (fun r => { r with lastOdo := some o, worn := r.worn || (e.lifeLimit != 0 && e.lifeLimit ≤ o.toNat) })
    (recordSighting p o s)

/-! ### Outcomes of a challenge -/

/-- FAIL (R33): with fail_latch the verdict is forced, without it evaluated. -/
def failAnswer (p : Pos) (e : ClassEntry) (s : State) : State :=
  let t := addEvidence p e.wFail s
  if e.failLatch = true then force p .counterfeit .fail t else evaluate p .fail t

/-- A passing answer (R37 to R43). -/
def passAnswer (p : Pos) (e : ClassEntry) (o : Word32) (s : State) : State :=
  let t := addEvidence p e.wPass s
  let r := t.run[p]
  match odoFinding e r.odoRef (sightedOdo t p) r.strokes o with
  | .rolledBack => rollback p t
  | .firstPass =>
    evaluate p .pass (recordOdometer p e o (modRun p (fun x => { x with odoRef := some { odo := o, strokes := x.strokes } }) t))
  | .later w reason => evaluate p reason (recordOdometer p e o (addEvidence p w t))

/-- The round ends with this answer: ROLLBACK or a latched FAIL (R43). -/
def answerEndsRound (s : State) (p : Pos) (e : ClassEntry) (equal : Bool) (o : Word32) : Bool :=
  if equal then
    odoFinding e s.run[p].odoRef (sightedOdo s p) s.run[p].strokes o == .rolledBack
  else e.failLatch

/-- NO-ANSWER evidence (R34). -/
def noAnswer (p : Pos) (s : State) : State :=
  match classOf s s.run[p] with
  | none => s
  | some e => evaluate p .noAnswer (addEvidence p e.wNoAnswer s)

/-- DUPLICATE at an earlier holder, weighted by its own class's w_dup (R35). -/
def duplicateHolder (q : Pos) (s : State) : State :=
  match classOf s s.run[q] with
  | none => s
  | some e => evaluate q .duplicate (addEvidence q e.wDup s)

/-! ### Cycle-counted fields (R25, R48) -/

/-- The decay count may advance: CHALLENGING or HELD, with a class and no latch (R25). -/
def decays (r : Runtime) : Bool :=
  (r.phase == .challenging || r.phase == .held) && r.classIndex.isSome && !r.latch

/-- The advance of a position's decay count and the decay step it brings (R25, R48). The test is R48's for every
decay_period: a count of 1 gives the step where decay_period is 1, after evidence at the same boundary too, where R49 speaks
of no step (DESIGN CHOICE, LOG 25). -/
def advanceDecay (p : Pos) (s : State) : State :=
  let r := s.run[p]
  if decays r = true then
    let count := min 65535 (r.decayCount + 1)
    match classOf s r with
    | none => s
    | some e =>
      if e.decayPeriod ≠ 0 ∧ e.decayPeriod ≤ count then
        evaluate p .decay (modRun p (fun x => { x with score := decayScore e.decayStep x.score, decayCount := 0 }) s)
      else modRun p (fun x => { x with decayCount := count }) s
  else s

/-- The advance of a position's sweep age, in HELD without the latch (R25). -/
def advanceSweep (p : Pos) (s : State) : State :=
  let r := s.run[p]
  if r.phase = .held ∧ r.latch = false then modRun p (fun x => { x with sweepAge := min 65535 (x.sweepAge + 1) }) s else s

/-- The cycle-counted fields of one position advance (R25). -/
def advancePosition (p : Pos) (s : State) : State := advanceDecay p (advanceSweep p s)

end Sys2Proof.Machine
end

