-- ==== Sys2Proof/Machine/Gate.lean ====
section
/-! DEFINITION. The gate unit GATE (07): the choice of the action, the rewriting of the output slots and the gated map. -/

namespace Sys2Proof.Machine

/-- The rank of an action by restriction (R116). -/
def GateAction.rank : GateAction → Nat
  | .pass => 0
  | .clamp => 1
  | .block => 2

/-- The most restrictive of two actions (R116). -/
def GateAction.strictest (a b : GateAction) : GateAction := if a.rank < b.rank then b else a

/-- The verdict action (R119); a GENUINE position in row 4 always holds a class index, and without one it would pass. -/
def verdictAction (e : Option ClassEntry) (unknownPolicy : GateAction) (v : Verdict) : GateAction :=
  match v, e with
  | .genuine, _ => .pass
  | .counterfeit, some e => e.policyCf
  | .revoked, some e => e.policyCf
  | .counterfeit, none => .block
  | .revoked, none => .block
  | .undecided, some e => e.policyPending
  | .undecided, none => unknownPolicy
  | .none, _ => unknownPolicy

/-- The action combined with the worn action (R120). -/
def wornAction (e : Option ClassEntry) (worn : Bool) (a : GateAction) : GateAction :=
  match e with
  | some e => if worn then a.strictest e.policyWorn else a
  | none => a

/-- The gate action of a position (R118). -/
def gateAction (s : State) (p : Pos) : GateAction :=
  let r := s.run[p]
  if s.device = .starting ∧ r.phase ≠ .disabled then .block
  else if r.phase = .disabled ∨ r.phase = .vacant then .pass
  else if r.released = true then .pass
  else wornAction (classOf s r) r.worn (verdictAction (classOf s r) s.mgt.setup.unknownPolicy r.verdict)

/-- The ceiling of a CLAMP: the class's clamp_value with a class index, Setup unknown_clamp without (R120). -/
def clampCeiling (s : State) (p : Pos) : Nat :=
  match classOf s s.run[p] with
  | some e => e.clampValue
  | none => s.mgt.setup.unknownClamp

/-- A byte number lies in the gate field; under SHORT a gate field that reaches beyond byte 3 is the whole slot (R123). -/
def inGateField (framing : Framing) (c : PosConfig) (i : Nat) : Bool :=
  (framing == .short && 4 < c.gateOffset + c.gateLength) || (c.gateOffset ≤ i && i < c.gateOffset + c.gateLength)

/-- The clamp field that counts for this framing (R123). -/
def clampField (framing : Framing) (c : PosConfig) : Option Nat :=
  match c.clampOffset with
  | none => none
  | some o => if framing = .short ∧ 3 ≤ o then none else some o

/-- BLOCK: 0 over the gate field and over the clamp field (R122). -/
def blockSlot (framing : Framing) (c : PosConfig) (slot : Bytes) : Bytes :=
  slot.mapIdx (fun i b =>
    if inGateField framing c i || (match clampField framing c with
      | none => false
      | some o => i == o || i == o + 1) then 0 else b)

/-- CLAMP: the 16-bit value at the clamp field limited to the ceiling (R122). -/
def clampSlot (o ceiling : Nat) (slot : Bytes) : Bytes :=
  let v := min (fieldNat o 2 slot) ceiling
  slot.mapIdx (fun i b => if i = o then BitVec.ofNat 8 (v / 256) else if i = o + 1 then BitVec.ofNat 8 v else b)

/-- The output slot rewritten by an action (R122, R123). -/
def rewriteSlot (framing : Framing) (c : PosConfig) (a : GateAction) (ceiling : Nat) (slot : Bytes) : Bytes :=
  match a with
  | .pass => slot
  | .block => blockSlot framing c slot
  | .clamp =>
    match clampField framing c with
    | none => blockSlot framing c slot
    | some o => clampSlot o ceiling slot

/-- Slot `k` (0 for the first) of a cycle telegram as it is sent: gated for a position within Setup position_count,
untouched otherwise (R124). -/
def gatedSlot (s : State) (h : CycleHeader) (body : Bytes) (k : Nat) : Bytes :=
  let slot := slotBytes h k body
  if hk : k < 48 then
    if k + 1 ≤ s.mgt.setup.positionCount then
      let p : Pos := ⟨k, hk⟩
      rewriteSlot s.fwd.framing s.configs[p] (gateAction s p) (clampCeiling s p) slot
    else slot
  else slot

/-- The bytes of a cycle telegram from kind byte to the last slot, as GATE leaves them (R117, R124). -/
def gatedBytes (s : State) (body : Bytes) : Bytes :=
  let h := cycleHeader body
  kindCycle :: body.take 4 ++ (List.range h.slotCount).flatMap (gatedSlot s h body)

/-- The telegram sent on port D: with a new check sequence where a byte has changed, as received otherwise (R125). -/
def gatedTelegram (s : State) (body : Bytes) : Bytes :=
  let bytes := gatedBytes s body
  let received := kindCycle :: body
  if bytes = received.take bytes.length then received else withCheck bytes

/-- The gated map of the telegram: one indication for each position, set when its action is not PASS (R126). -/
def gatedMapOf (s : State) : Vector Bool 48 := Vector.ofFn (fun p : Pos => gateAction s p != .pass)

end Sys2Proof.Machine
end

