-- ==== Sys2Proof/Machine/Keys.lean ====
section
/-! DEFINITION. The key store KST (10): when it is busy, the request of an epoch update, and the abort of an operation. -/

namespace Sys2Proof.Machine

/-- KST is busy in every operation state but IDLE (R180). -/
def KeyStore.busy (k : KeyStore) : Bool :=
  match k.op with
  | .idle => false
  | .programming _ _ _ => true
  | .erasing _ _ => true
  | .protecting _ _ => true
  | .epochUpdate _ => true

/-- The epoch is ready: no epoch update is running or pending (R63, R186). -/
def KeyStore.epochReady (k : KeyStore) : Bool :=
  !k.epochPending &&
    (match k.op with
      | .idle => true
      | .programming _ _ _ => true
      | .erasing _ _ => true
      | .protecting _ _ => true
      | .epochUpdate _ => false)

/-- A slot is protected: its number is at or above the boundary (R178). -/
def KeyStore.isProtected (k : KeyStore) (slot : SlotNo) : Bool := k.boundary ≤ slot.val

/-- The page of a slot (R177). -/
def pageOf (slot : SlotNo) : Fin 4 := ⟨slot.val / 4, by omega⟩

/-- The request of an epoch update (R186): complete at once at 2^32 - 1, started when IDLE, pending otherwise. -/
def KeyStore.requestEpoch (now : Nat) (k : KeyStore) : KeyStore :=
  if k.epoch = BitVec.allOnes 32 then k
  else
    match k.op with
    | .idle => { k with op := .epochUpdate (now + Config.epochTicks) }
    | .programming _ _ _ => { k with epochPending := true }
    | .erasing _ _ => { k with epochPending := true }
    | .protecting _ _ => { k with epochPending := true }
    | .epochUpdate _ => { k with epochPending := true }

/-- The last step of a completion: a pending epoch update starts (R182, R184, R185). -/
def KeyStore.startPending (now : Nat) (k : KeyStore) : KeyStore :=
  if k.epochPending then { k with epochPending := false, op := .epochUpdate (now + Config.epochTicks) } else k

/-- Set the four slots of a page. -/
def setPage (page : Fin 4) (f : Fin 4 → KeySlot) (slots : Vector KeySlot 16) : Vector KeySlot 16 :=
  Vector.ofFn (fun i : SlotNo => if pageOf i = page then f ⟨i.val % 4, by omega⟩ else slots[i])

/-- What a reset or a loss of power leaves of the operation in flight (R189, R190); `written` is whether an interrupted
epoch update had written the new epoch. -/
def KeyStore.abort (written : Bool) (k : KeyStore) : KeyStore :=
  match k.op with
  | .idle => { k with epochPending := false }
  | .programming slot _ _ => { k with slots := k.slots.set slot.val .faulty slot.isLt, op := .idle, epochPending := false }
  | .erasing page _ => { k with slots := setPage page (fun _ => .faulty) k.slots, op := .idle, epochPending := false }
  | .protecting _ _ => { k with op := .idle, epochPending := false }
  | .epochUpdate _ => { k with epoch := if written then k.epoch + 1 else k.epoch, op := .idle, epochPending := false }

/-- The abort of the operation in flight, with the free choice of R189 (LOG 6). -/
def abortOperation (s : State) : State :=
  { s with kst := s.kst.abort (Config.epochWritten s.freeIndex), freeIndex := s.freeIndex + 1 }

end Sys2Proof.Machine
end

