-- ==== Sys2Proof/Machine/Position.lean ====
section
/-! DEFINITION. The position controller POS (01): removal, loss and disable, the handling of a return's inputs, stroke
counting, and identification processing. -/

namespace Sys2Proof.Machine

/-- The phase of a position whose runtime half is cleared: DISABLED or VACANT (R6). -/
def restPhase (c : PosConfig) (positionCount : Nat) (p : Pos) : Phase :=
  if c.enabled = true ∧ p.val + 1 ≤ positionCount then .vacant else .disabled

/-! ### Removal, loss and disable (R14 to R16) -/

/-- The processing of R14, with the reason it records and the phase it leaves. -/
def removePart (reason : Reason) (phase : Phase) (p : Pos) (s : State) : State :=
  let r := s.run[p]
  let t := leaveSighting p (abandon p s)
  let u := modRun p (fun _ => { Runtime.cleared phase with reason := some reason }) t
  if r.verdict = .none then u else addNotice (noticeFor p r.verdict .none reason r.identity 0 u) u

/-- Loss: VACANT becomes LOST without processing (R8), the phases of a part go through loss processing (R15). -/
def losePart (p : Pos) (s : State) : State :=
  if s.run[p].phase = .vacant then modRun p (fun r => { r with phase := .lost, lossCount := 0 }) s
  else removePart .lost .lost p s

/-- Disable processing (R16). -/
def disablePosition (p : Pos) (s : State) : State := removePart .disabled .disabled p s

/-! ### Returns (R7 to R13) -/

/-- Settling is complete (R10): IDENTIFYING, S from 0 with this slot's counter, and an IDENT request. -/
def completeSettling (p : Pos) (counter : BitVec 16) (s : State) : State :=
  ask p .ident none
    (modRun p (fun r => { r with phase := .identifying, settleCount := 0, lossCount := 0, strokes := 0, prevStroke := counter })
      s)

/-- A PRESENT input of a SETTLING position (R10). -/
def settlePresent (p : Pos) (stationBits : BitVec 14) (counter : BitVec 16) (s : State) : State :=
  if watchHolds s.configs[p] stationBits = true then
    if s.configs[p].settleCycles ≤ s.run[p].settleCount + 1 then completeSettling p counter s
    else modRun p (fun r => { r with settleCount := r.settleCount + 1, lossCount := 0 }) s
  else modRun p (fun r => { r with settleCount := 0, lossCount := 0 }) s

/-- Entry into SETTLING from VACANT or LOST, with the same input handled as a SETTLING input (R9); from LOST the released
flag is cleared (R128). -/
def enterSettling (p : Pos) (stationBits : BitVec 14) (counter : BitVec 16) (s : State) : State :=
  settlePresent p stationBits counter
    (modRun p (fun r => { r with phase := .settling, settleCount := 0, lossCount := 0,
                                 released := if r.phase = .lost then false else r.released }) s)

/-- The cap of a stroke step: the class's stroke_cap, or Setup default_stroke_cap (R23). -/
def strokeCapOf (s : State) (r : Runtime) : Nat :=
  match classOf s r with
  | some e => e.strokeCap
  | none => s.mgt.setup.defaultStrokeCap

/-- The stroke count after one PRESENT input (R23). -/
def countStrokes (cap : Nat) (counter : BitVec 16) (r : Runtime) : Runtime :=
  let delta := (counter - r.prevStroke).toNat
  { r with strokes := min (r.strokes + min delta cap) (2 ^ 32 - 1), prevStroke := counter,
           strokeJump := r.strokeJump || cap < delta }

/-- A MISSING input raises the loss count, and at lost_cycles the position is lost (R11). -/
def missInput (p : Pos) (s : State) : State :=
  if s.mgt.setup.lostCycles ≤ s.run[p].lossCount + 1 then losePart p s
  else modRun p (fun r => { r with lossCount := r.lossCount + 1,
                                   settleCount := if r.phase = .settling then 0 else r.settleCount }) s

/-- A seated position's input: IDENTIFYING, CHALLENGING or HELD (R12, R23). -/
def seatedInput (p : Pos) (input : Input) (s : State) : State :=
  match input with
  | .present _ counter =>
    modRun p (fun r => { countStrokes (strokeCapOf s r) counter r with lossCount := 0 }) s
  | .absent => removePart .removed .vacant p s
  | .missing => missInput p s

/-- The handling of one position's input by its phase (R7). -/
def handleInput (p : Pos) (input : Input) (s : State) : State :=
  match s.run[p].phase with
  | .disabled => s
  | .vacant =>
    match input with
    | .present bits counter => enterSettling p bits counter s
    | .absent => modRun p (fun r => { r with lossCount := 0 }) s
    | .missing => missInput p s
  | .settling =>
    match input with
    | .present bits counter => settlePresent p bits counter s
    | .absent => removePart .removed .vacant p s
    | .missing => missInput p s
  | .identifying => seatedInput p input s
  | .challenging => seatedInput p input s
  | .held => seatedInput p input s
  | .lost =>
    match input with
    | .present bits counter => enterSettling p bits counter s
    | .absent => modRun p (fun r => { r with phase := .vacant, released := false }) s
    | .missing => s

/-- POS takes the inputs of a return, in the free order of R7 (LOG 8); in STARTING it takes none (R26). -/
def takeInputs (body : Bytes) (s : State) : State :=
  match s.device with
  | .starting => s
  | .running => handleAll (fun p t => handleInput p (inputOf body p) t) s

/-! ### Identification (R17 to R20) -/

/-- The sighting step (R17, R93): the identity is set, the entry found or made, and each earlier holder given its
DUPLICATE in ascending order (R35). -/
def sightingStep (p : Pos) (id : Identity) (s : State) : State :=
  let earlier := earlierHolders p id.cls id.serial s.sightings
  let t := modRun p (fun r => { r with identity := some id }) s
  earlier.foldl (fun t q => duplicateHolder q t) { t with sightings := sight p id.cls id.serial t.sightings }

/-- The revocation step on a match (R18). -/
def revokeAtIdentification (p : Pos) (id : Identity) (s : State) : State :=
  modRun p (fun r => { r with phase := .held })
    (force p .revoked .revoked (modRun p (fun r => { r with classIndex := findClass s.mgt.classes id.cls }) s))

/-- The class step for an unknown class (R19). -/
def classUnknown (p : Pos) (s : State) : State :=
  notifyChange p s.run[p].verdict .classUnknown
    (modRun p (fun r => { r with classIndex := none, score := 0, verdict := .undecided, reason := some .classUnknown,
                                 phase := .held }) s)

/-- The class step for a known class without a duplicate finding (R19): UNDECIDED without a notice. -/
def classKnown (p : Pos) (i : ClassIdx) (s : State) : State :=
  callNew p (modRun p (fun r => { r with classIndex := some i, score := 0, verdict := .undecided, reason := none }) s)

/-- The class step for a known class with a duplicate finding (R19): the joiner's DUPLICATE from score 0 and UNDECIDED; a
notice when the result is not UNDECIDED. -/
def classKnownDuplicate (p : Pos) (i : ClassIdx) (s : State) : State :=
  let e := s.mgt.classes[i]
  let before := s.run[p].verdict
  let score := addScore 0 e.wDup
  let v := nextVerdict e score .undecided
  let t := modRun p (fun r => { r with classIndex := some i, score := score, decayCount := 0, verdict := v,
                                       reason := some .duplicate }) s
  callNew p (if v = .undecided then t else notifyChange p before .duplicate t)

/-- The class step (R19). -/
def classStep (p : Pos) (id : Identity) (duplicate : Bool) (s : State) : State :=
  match findClass s.mgt.classes id.cls with
  | none => classUnknown p s
  | some i => if duplicate then classKnownDuplicate p i s else classKnown p i s

/-- Identification processing (R17 to R19): sighting, revocation and class step as one event. -/
def identify (p : Pos) (id : Identity) (s : State) : State :=
  let duplicate := !(earlierHolders p id.cls id.serial s.sightings).isEmpty
  let t := sightingStep p id s
  if isRevoked t.revocations id = true then revokeAtIdentification p id t else classStep p id duplicate t

/-- The outcome NO-TAG after all attempts (R20). -/
def noTagOutcome (p : Pos) (s : State) : State :=
  notifyChange p s.run[p].verdict .noTag
    (modRun p (fun r => { r with identity := none, classIndex := none, verdict := .undecided, reason := some .noTag,
                                 phase := .held }) s)

end Sys2Proof.Machine
end

