-- ==== Sys2Proof/Machine/Scheduler.lean ====
section
/-! DEFINITION. The challenge scheduler SCH (03): matching of replies, verification, expiry, the choice of R64, the sweep,
the issue of transactions and resends, and the abandonment by an erase. -/

namespace Sys2Proof.Machine

/-! ### Verification (R71, R86) -/

/-- The verification of an answer for a record place whose record is given (R71): key-missing discard, or the handling by
EVD and the end of the round (R72). -/
def verify (i : RecNo) (rec : Record) (nonce : Nonce) (slot : SlotNo) (odo response : Word32) (s : State) : State :=
  let p := rec.position
  let t := setRecord i none s
  match s.kst.slots[slot] with
  | .blank => latchKeyMissing (endRound p (modRun p (fun r => { r with keyMissing := true }) t))
  | .faulty => latchKeyMissing (endRound p (modRun p (fun r => { r with keyMissing := true }) t))
  | .programmed key =>
    let u := modRun p (fun r => { r with keyMissing := false }) t
    match u.run[p].identity, classOf u u.run[p] with
    | some id, some e =>
      let equal := responseWord key nonce id odo == response
      let v := if equal then passAnswer p e odo u else failAnswer p e u
      if answerEndsRound u p e equal odo = true ∨ v.run[p].remaining = 0 then endRound p v else v
    | some _, none => endRound p u
    | none, some _ => endRound p u
    | none, none => endRound p u

/-- Verify a record place that waits in AWAITING-KEY, with its held answer (R79). -/
def verifyWaiting (i : RecNo) (s : State) : State :=
  match s.sch.records[i] with
  | none => s
  | some rec =>
    match rec.state, rec.query with
    | .awaitingKey odo response _, .challenge nonce slot => verify i rec nonce slot odo response s
    | .awaitingKey _ _ _, .ident => s
    | .issued, _ => s
    | .resendWaiting _, _ => s

/-- The arrival order of a record place, where it waits in AWAITING-KEY (R61). -/
def arrivalOrder (s : State) (i : RecNo) : Option Nat :=
  match s.sch.records[i] with
  | none => none
  | some rec =>
    match rec.state with
    | .awaitingKey _ _ n => some n
    | .issued => none
    | .resendWaiting _ => none

/-- The order of entry of a record place, where it is RESEND-WAITING (R64). -/
def resendOrder (s : State) (i : RecNo) : Option Nat :=
  match s.sch.records[i] with
  | none => none
  | some rec =>
    match rec.state with
    | .resendWaiting n => some n
    | .issued => none
    | .awaitingKey _ _ _ => none

/-- The next order number over record places. -/
def nextOrder (order : RecNo → Option Nat) : Nat :=
  (List.finRange 4).foldl (fun n i => match order i with
    | none => n
    | some k => max n k) 0 + 1

/-- The record places that have an order number, in that order. -/
def recordsBy (order : RecNo → Option Nat) : List RecNo :=
  ((List.finRange 4).filter (fun i => (order i).isSome)).insertionSort (fun a b => (order a).getD 0 ≤ (order b).getD 0)

/-- The verifications of a KST completion, in arrival order (R79). -/
def verifyAll (s : State) : State := (recordsBy (arrivalOrder s)).foldl (fun t i => verifyWaiting i t) s

/-! ### Expiry (R73, R74) -/

/-- An expiry of a record place in ISSUED: RESEND-WAITING with attempts to spare, else the transaction has failed. -/
def expire (i : RecNo) (rec : Record) (s : State) : State :=
  if rec.attempt < Config.attempts then
    setRecord i (some { rec with state := .resendWaiting (nextOrder (resendOrder s)) }) s
  else
    match rec.query with
    | .ident => noTagOutcome rec.position (setRecord i none s)
    | .challenge _ _ => endRound rec.position (noAnswer rec.position (setRecord i none s))

/-! ### Replies (R69 to R71, R74) -/

/-- A verifier reply handed to SCH. -/
structure Reply where
  node : Byte
  tag : Byte
  code : Byte
  payload : Bytes
deriving DecidableEq, Repr

/-- The code, the payload length and the nonce echo suit a record's query (R69). -/
def Reply.suits (r : Reply) (q : Query) : Bool :=
  match q with
  | .ident => (r.code == codeIdent && r.payload.length == 11) || (r.code == codeNoTag && r.payload.length == 0)
  | .challenge nonce _ =>
    (r.code == codeAnswer && r.payload.length == 16 && (answerOf r.payload).echo == nonce) ||
      (r.code == codeNoTag && r.payload.length == 0)

/-- A reply matches a record (R69). -/
def Reply.matchesRecord (r : Reply) (rec : Record) : Bool :=
  r.tag.toNat == rec.tag && r.node.toNat == rec.position.val + 1 && r.suits rec.query

/-- The record place a reply matches. -/
def matchReply (s : State) (r : Reply) : Option RecNo :=
  (List.finRange 4).find? (fun i => match s.sch.records[i] with
    | none => false
    | some rec => r.matchesRecord rec)

/-- A matching ANSWER to a challenge record (R71): verified at once, held while KST is busy, discarded in AWAITING-KEY. -/
def takeAnswer (i : RecNo) (rec : Record) (nonce : Nonce) (slot : SlotNo) (payload : Bytes) (s : State) : State :=
  let a := answerOf payload
  match rec.state with
  | .awaitingKey _ _ _ => s
  | .issued =>
    if s.kst.busy = true then
      setRecord i (some { rec with state := .awaitingKey a.odo a.response (nextOrder (arrivalOrder s)) }) s
    else verify i rec nonce slot a.odo a.response s
  | .resendWaiting _ =>
    if s.kst.busy = true then
      setRecord i (some { rec with state := .awaitingKey a.odo a.response (nextOrder (arrivalOrder s)) }) s
    else verify i rec nonce slot a.odo a.response s

/-- A matching NO-TAG: an expiry in ISSUED, discarded otherwise (R74). -/
def takeNoTag (i : RecNo) (rec : Record) (s : State) : State :=
  match rec.state with
  | .issued => expire i rec s
  | .resendWaiting _ => s
  | .awaitingKey _ _ _ => s

/-- A matching IDENT (R70). -/
def takeIdent (i : RecNo) (rec : Record) (payload : Bytes) (s : State) : State :=
  match rec.state with
  | .issued => identify rec.position (identityOf payload) (setRecord i none s)
  | .resendWaiting _ => identify rec.position (identityOf payload) (setRecord i none s)
  | .awaitingKey _ _ _ => s

/-- SCH takes a verifier reply (R69): matched and handled by its code, or discarded. -/
def takeReply (r : Reply) (s : State) : State :=
  match matchReply s r with
  | none => s
  | some i =>
    match s.sch.records[i] with
    | none => s
    | some rec =>
      if r.code = codeNoTag then takeNoTag i rec s
      else
        match rec.query with
        | .ident => takeIdent i rec r.payload s
        | .challenge nonce slot => takeAnswer i rec nonce slot r.payload s

/-! ### Dispatch (R64 to R67) -/

/-- What SCH puts into an opportunity. -/
inductive Choice where
  | resend (i : RecNo)
  | continuation (p : Pos)
  | queued (e : Request)
  | sweepIdent (p : Pos)
  | sweepRound (p : Pos)
deriving DecidableEq, Repr

/-- The first free record place (LOG 15). -/
def freeRecord (s : State) : Option RecNo := (List.finRange 4).find? (fun i => s.sch.records[i].isNone)

/-- The position waits for the next challenge of its round (R59). -/
def continuing (s : State) (p : Pos) : Bool :=
  s.run[p].phase == .challenging && s.run[p].remaining != 0 && s.run[p].classIndex.isSome && !hasRecord s p && !hasEntry s p

/-- A queue entry may be issued (R64). -/
def issuable (s : State) (e : Request) : Bool :=
  !hasRecord s e.position &&
    (match e.kind with
      | .ident => true
      | .new => s.kst.epochReady && s.run[e.position].classIndex.isSome
      | .due => s.kst.epochReady && s.run[e.position].classIndex.isSome)

/-- A position is eligible for the sweep (R67). -/
def sweepEligible (s : State) (p : Pos) : Bool :=
  let r := s.run[p]
  let bySweepPeriod :=
    match r.identity, classOf s r with
    | some _, some e => e.sweepPeriod != 0 && e.sweepPeriod ≤ r.sweepAge
    | _, _ => false
  r.phase == .held && !r.latch &&
    (bySweepPeriod ||
      (r.verdict == .undecided && s.mgt.setup.undecidedRetry ≤ r.sweepAge && (r.identity.isNone || r.classIndex.isSome)))

/-- The sweep may pick a position: eligible, without a record, and the epoch ready where it takes a nonce (R66). -/
def sweepable (s : State) (p : Pos) : Bool :=
  sweepEligible s p && !hasRecord s p && (s.run[p].identity.isNone || s.kst.epochReady)

/-- The positions from the sweep cursor on, then those before it (R66). -/
def sweepOrder (cursor : Pos) : List Pos := (List.finRange 48).rotateLeft cursor.val

/-- What R64 finds at this moment. -/
def choose (s : State) : Option Choice :=
  match recordsBy (resendOrder s) with
  | i :: _ => some (.resend i)
  | [] =>
    if (freeRecord s).isNone then none
    else
      match (if s.kst.epochReady then (List.finRange 48).find? (continuing s) else none) with
      | some p => some (.continuation p)
      | none =>
        match s.sch.queue.find? (issuable s) with
        | some e => some (.queued e)
        | none =>
          match (sweepOrder s.sch.cursor).find? (sweepable s) with
          | some p => some (if s.run[p].identity.isNone then .sweepIdent p else .sweepRound p)
          | none => none

/-- SCH reports work waiting (R65). -/
def schHasWork (s : State) : Bool := s.device == .running && (choose s).isSome

/-! ### Issue (R58, R62, R63, R68, R75) -/

/-- A tag is held by a record in use (R62). -/
def tagInUse (s : State) (tag : Nat) : Bool :=
  s.sch.records.toList.any (fun r => match r with
    | none => false
    | some x => x.tag == tag)

/-- The tag given next: from the counter plus one, 15 followed by 1, those in use skipped (R62). -/
def nextTag (s : State) : Nat :=
  (((List.range 15).map (fun k => (s.sch.tagCounter + k) % 15 + 1)).find? (fun t => !tagInUse s t)).getD 1

/-- The nonce SCH takes: epoch above, counter below (R88). -/
def currentNonce (s : State) : Nonce := s.kst.epoch ++ s.sch.nonceCounter

/-- The step of the nonce counter after a nonce is taken, with the epoch update of a wrap (R63, R89). -/
def stepNonce (s : State) : State :=
  if s.sch.nonceCounter = BitVec.allOnes 32 then
    { s with sch.nonceCounter := 0, kst := s.kst.requestEpoch s.now }
  else { s with sch.nonceCounter := s.sch.nonceCounter + 1 }

/-- The telegram of a transaction (R68, R150). -/
def queryTelegram (p : Pos) (tag : Nat) (q : Query) : Bytes :=
  match q with
  | .ident => serviceTelegram (posByte p) originVerifier (BitVec.ofNat 8 tag) codeIdentQuery []
  | .challenge nonce _ => serviceTelegram (posByte p) originVerifier (BitVec.ofNat 8 tag) codeChallenge (be 8 nonce.toNat)

/-- A telegram begins to be sent on port D. -/
def sendD (bytes : Bytes) (s : State) : State := { s with fwd.dSending := some bytes }

/-- A queue entry taken for issue leaves the queue, and the pending request becomes none (R68). -/
def dequeue (p : Pos) (s : State) : State :=
  modRun p (fun r => { r with pendingRequest := none })
    { s with sch.queue := s.sch.queue.filter (fun e => e.position != p) }

/-- A record is filled and its query sent (R68). -/
def openRecord (p : Pos) (q : Query) (s : State) : State :=
  match freeRecord s with
  | none => s
  | some i =>
    let tag := nextTag s
    let t := setRecord i
      (some { tag, position := p, query := q, attempt := 1, deadline := s.now + s.mgt.setup.answerTimeout, state := .issued }) s
    sendD (queryTelegram p tag q) { t with sch.tagCounter := tag }

/-- The issue of an identification. -/
def issueIdent (p : Pos) (s : State) : State := openRecord p .ident s

/-- The issue of a challenge: nonce and captured key slot (R63, R68). -/
def issueChallenge (p : Pos) (s : State) : State :=
  match classOf s s.run[p] with
  | none => s
  | some e => stepNonce (openRecord p (.challenge (currentNonce s) e.keySlot) s)

/-- The start of a round at its first challenge: repeat challenges are left to come (R58). -/
def startRound (p : Pos) (kind : RoundKind) (s : State) : State :=
  match classOf s s.run[p] with
  | none => s
  | some e => modRun p (fun r => { r with remaining := e.repeatCount, sweepAge := 0, roundKind := kind, phase := .challenging }) s

/-- A resend (R75). -/
def resend (i : RecNo) (s : State) : State :=
  match s.sch.records[i] with
  | none => s
  | some rec =>
    sendD (queryTelegram rec.position rec.tag rec.query)
      (setRecord i (some { rec with attempt := rec.attempt + 1, deadline := s.now + s.mgt.setup.answerTimeout,
                                    state := .issued }) s)

/-- The sweep moves its cursor past its pick (R66). -/
def moveCursor (p : Pos) (s : State) : State := { s with sch.cursor := p + 1 }

/-- SCH fills the opportunity with its choice (R64, R68). -/
def fill (c : Choice) (s : State) : State :=
  match c with
  | .resend i => resend i s
  | .continuation p => issueChallenge p (modRun p (fun r => { r with remaining := r.remaining - 1 }) s)
  | .queued e =>
    match e.kind with
    | .ident => issueIdent e.position (dequeue e.position s)
    | .new => issueChallenge e.position (startRound e.position s.run[e.position].roundKind (dequeue e.position s))
    | .due => issueChallenge e.position (startRound e.position s.run[e.position].roundKind (dequeue e.position s))
  | .sweepIdent p =>
    issueIdent p (modRun p (fun r => { r with phase := .identifying, sweepAge := 0 }) (moveCursor p s))
  | .sweepRound p => issueChallenge p (startRound p .sweep (moveCursor p s))

/-! ### Abandonment by an erase (R77) -/

/-- The record place holds a challenge whose captured slot lies in the page. -/
def capturedIn (page : Fin 4) (rec : Record) : Bool :=
  match rec.query with
  | .ident => false
  | .challenge _ slot => pageOf slot == page

/-- The acceptance of an erase abandons a record place (R77): freed, key_missing, the round ended, no attention flag. -/
def eraseRecord (page : Fin 4) (i : RecNo) (s : State) : State :=
  match s.sch.records[i] with
  | none => s
  | some rec =>
    if capturedIn page rec = true then
      endRound rec.position (modRun rec.position (fun r => { r with keyMissing := true }) (setRecord i none s))
    else s

/-- Every challenge record that captured a slot of the page is abandoned (R77). -/
def eraseAbandon (page : Fin 4) (s : State) : State := (List.finRange 4).foldl (fun t i => eraseRecord page i t) s

end Sys2Proof.Machine
end

