-- ==== Sys2Proof/Machine/Tables.lean ====
section
/-! DEFINITION. The tables of the management unit (09): reading entries, the tests of WRITE-ENTRIES, staging, the application
of the pending edit set, the Setup write and the passage to RUNNING it may bring. -/

namespace Sys2Proof.Machine

/-! ### The passage to RUNNING (R196) -/

/-- The passage is taken where the start count is 8 and the Setup lock is set. -/
def passage (s : State) : State :=
  if s.device = .starting ∧ s.startCount = Config.startCycles ∧ s.mgt.setupLock = true then { s with device := .running } else s

/-! ### Application of the pending edit set (R166) -/

/-- Step 1: an item replaces the active entry of its table and index. -/
def replaceEntry (item : EditItem) (s : State) : State :=
  match item with
  | .config p c => { s with configs := s.configs.set p.val c p.isLt }
  | .cls i e => { s with mgt.classes := s.mgt.classes.set i.val e i.isLt }

/-- A change that restarts settling (R4). -/
def settlingChanged (old new : PosConfig) : Bool :=
  old.settleCycles != new.settleCycles || old.watchForm != new.watchForm || old.watchMask != new.watchMask

/-- Step 2: POS reacts to one POSITION-CONFIG item (R4). -/
def reactConfig (p : Pos) (old new : PosConfig) (s : State) : State :=
  if old.enabled = true ∧ new.enabled = false then
    if s.run[p].phase = .disabled then s else disablePosition p s
  else if old.enabled = false ∧ new.enabled = true then
    if p.val + 1 ≤ s.mgt.setup.positionCount then modRun p (fun _ => Runtime.cleared .vacant) s else s
  else if s.run[p].phase = .settling ∧ settlingChanged old new = true then
    modRun p (fun r => { r with settleCount := 0 }) s
  else s

/-- Step 3 at one position: it loses its class index (R51, R76). -/
def loseClass (p : Pos) (s : State) : State :=
  let t := abandon p s
  if s.run[p].latch = true then modRun p (fun r => { r with classIndex := none }) t
  else
    notifyChange p s.run[p].verdict .classUnknown
      (modRun p (fun r => { r with classIndex := none, verdict := .undecided, reason := some .classUnknown, phase := .held }) t)

/-- Step 3 for one CLASS item: positions of the entry whose identity's class is not its new code. -/
def dropClass (i : ClassIdx) (code : Code) (s : State) : State :=
  serveAll (fun p t => if t.run[p].classIndex = some i ∧ (t.run[p].identity.map Identity.cls) ≠ some code then loseClass p t else t) s

/-- Step 4 at one position: it takes the entry's index, and unless latched starts anew (R51). -/
def gainClass (i : ClassIdx) (p : Pos) (s : State) : State :=
  if s.run[p].latch = true then modRun p (fun r => { r with classIndex := some i }) s
  else callNew p (modRun p (fun r => { r with classIndex := some i, score := 0 }) s)

/-- Step 4 for one CLASS item: positions of an identity of that class without a class index. -/
def addClass (i : ClassIdx) (code : Code) (s : State) : State :=
  if code = 0 then s
  else serveAll (fun p t => if t.run[p].classIndex = none ∧ (t.run[p].identity.map Identity.cls) = some code then gainClass i p t else t) s

/-- Step 5 for one CLASS item: positions of the entry are evaluated with reason TABLE-CHANGE (R50). -/
def reevaluateClass (i : ClassIdx) (s : State) : State :=
  serveAll (fun p t => if t.run[p].classIndex = some i then evaluate p .tableChange t else t) s

/-- Step 2 for an item. -/
def stepTwo (oldConfigs : Vector PosConfig 48) (item : EditItem) (s : State) : State :=
  match item with
  | .config p c => reactConfig p oldConfigs[p] c s
  | .cls _ _ => s

/-- Step 3 for an item. -/
def stepThree (item : EditItem) (s : State) : State :=
  match item with
  | .config _ _ => s
  | .cls i e => dropClass i e.code s

/-- Step 4 for an item. -/
def stepFour (item : EditItem) (s : State) : State :=
  match item with
  | .config _ _ => s
  | .cls i e => addClass i e.code s

/-- Step 5 for an item: its nonzero code is kept and another field changed. -/
def stepFive (oldClasses : Vector ClassEntry 32) (item : EditItem) (s : State) : State :=
  match item with
  | .config _ _ => s
  | .cls i e => if e.code ≠ 0 ∧ oldClasses[i].code = e.code ∧ oldClasses[i] ≠ e then reevaluateClass i s else s

/-- Run one step of the application over the items, in arrival order. -/
def overItems (f : EditItem → State → State) (items : List EditItem) (s : State) : State :=
  items.foldl (fun t item => f item t) s

/-- The application of the pending edit set: the five steps of R166, and the set is emptied. -/
def applyEdits (s : State) : State :=
  let items := s.mgt.edits
  let t1 := overItems replaceEntry items s
  let t2 := overItems (stepTwo s.configs) items t1
  let t3 := overItems stepThree items t2
  let t4 := overItems stepFour items t3
  let t5 := overItems (stepFive s.mgt.classes) items t4
  { t5 with mgt.edits := [] }

/-- An event of R165: the set is applied when it is not empty and the hold is clear. -/
def applyEvent (s : State) : State := if s.mgt.hold = false ∧ s.mgt.edits ≠ [] then applyEdits s else s

/-! ### The cycle boundary (R25, R49, R117, R135) -/

/-- The cycle-counted fields advance in RUNNING, in the free order of positions (R25). -/
def advanceAll (s : State) : State :=
  match s.device with
  | .starting => s
  | .running => handleAll advancePosition s

/-- The start count rises in STARTING, and the passage may follow (R195, R196). -/
def countStart (s : State) : State :=
  match s.device with
  | .starting => passage { s with startCount := min Config.startCycles (s.startCount + 1) }
  | .running => s

/-- The pending edit set is applied and the fields advance, in either order (R25, R49). -/
def applyAndAdvance (applicationFirst : Bool) (s : State) : State :=
  if applicationFirst then advanceAll (applyEvent s) else applyEvent (advanceAll s)

/-- The work of MGT, POS, EVD and the start at a boundary. The order of application and advance is free (LOG 7); it is
asked for only where a set is applied. -/
def boundaryWork (s : State) : State :=
  if s.mgt.hold = false ∧ s.mgt.edits ≠ [] then
    countStart (applyAndAdvance (Config.applicationFirst s.freeIndex) { s with freeIndex := s.freeIndex + 1 })
  else countStart (advanceAll s)

/-! ### Reading (R155 to R157) -/

/-- The tables (08, Tables). -/
inductive Table where
  | positionConfig
  | positionState
  | cls
  | sighting
  | revocation
  | setup
  | keyStatus
  | device
deriving DecidableEq, Repr

/-- The table of a table code. -/
def tableOf (code : Nat) : Option Table :=
  match code with
  | 1 => some .positionConfig
  | 2 => some .positionState
  | 3 => some .cls
  | 4 => some .sighting
  | 5 => some .revocation
  | 6 => some .setup
  | 7 => some .keyStatus
  | 8 => some .device
  | _ => none

def Table.entrySize : Table → Nat
  | .positionConfig => 8
  | .positionState => 32
  | .cls => 48
  | .sighting => 24
  | .revocation => 12
  | .setup => 16
  | .keyStatus => 80
  | .device => 16

def Table.entries : Table → Nat
  | .positionConfig => 48
  | .positionState => 48
  | .cls => 32
  | .sighting => 128
  | .revocation => 512
  | .setup => 1
  | .keyStatus => 1
  | .device => 1

/-- The most entries one reply carries (08, Tables). -/
def Table.perReply : Table → Nat
  | .positionConfig => 30
  | .positionState => 7
  | .cls => 5
  | .sighting => 10
  | .revocation => 20
  | .setup => 1
  | .keyStatus => 1
  | .device => 1

/-- The bytes of one entry as the state stands (R155). -/
def entryBytes (s : State) (t : Table) (i : Nat) : Bytes :=
  match t with
  | .positionConfig => if h : i < 48 then encodeConfig s.configs[i] else []
  | .positionState => if h : i < 48 then encodeRuntime s.run[i] else []
  | .cls => if h : i < 32 then encodeClass s.mgt.classes[i] else []
  | .sighting => encodeSighting s.sightings[i]?
  | .revocation => encodeRevocationView s.revocations[i]?
  | .setup => encodeSetup s.mgt.setup
  | .keyStatus => encodeKeyStatus s.kst
  | .device => encodeDevice s.mgt.resetCause s.kst

/-- `count` entries from a first index, one after another. -/
def entriesFrom (s : State) (t : Table) (first count : Nat) : Bytes :=
  (List.range count).flatMap (fun k => entryBytes s t (first + k))

/-- The count a READ-ENTRIES is given (R156). -/
def countGiven (t : Table) (first count : Nat) : Nat := min count (min t.perReply (t.entries - first))

/-- A read of DEVICE that returns the entry sets the reset cause to NONE (R198). -/
def readEffect (t : Table) (given : Nat) (s : State) : State :=
  if t = .device ∧ given ≠ 0 then { s with mgt.resetCause := .none } else s

/-! ### Writing (R160 to R164, R169) -/

/-- Item `k` of a payload's entries of a given size, from payload offset 4. -/
def entryAt (size k : Nat) (payload : Bytes) : Bytes := field (4 + k * size) size payload

/-- Every value of a list of optional values, or none where one is missing. -/
def allSome {α : Type} : List (Option α) → Option (List α)
  | [] => some []
  | none :: _ => none
  | some a :: rest =>
    match allSome rest with
    | none => none
    | some l => some (a :: l)

/-- Two items name the same table and index (R164). -/
def EditItem.sameEntry (a b : EditItem) : Bool :=
  match a, b with
  | .config p _, .config q _ => p == q
  | .cls i _, .cls j _ => i == j
  | .config _ _, .cls _ _ => false
  | .cls _ _, .config _ _ => false

/-- One item joins the pending edit set: in place of the item of its entry, or at the tail (R164). -/
def stageItem (edits : List EditItem) (item : EditItem) : List EditItem :=
  if edits.any item.sameEntry then edits.map (fun x => if item.sameEntry x then item else x) else edits ++ [item]

/-- The items of an accepted write join the set in index order (R164). -/
def stage (items : List EditItem) (s : State) : State := { s with mgt.edits := items.foldl stageItem s.mgt.edits }

/-- The items of a write that do not replace an item (R164). -/
def newItems (edits items : List EditItem) : Nat := items.countP (fun x => !(edits.any x.sameEntry))

/-- The pending edit set can take the items (R164). -/
def editsFit (edits items : List EditItem) : Bool := edits.length + newItems edits items ≤ Config.editCapacity

/-- The CLASS contents of an item list laid over a Class Table (R162). -/
def overlay (classes : Vector ClassEntry 32) (items : List EditItem) : Vector ClassEntry 32 :=
  items.foldl (fun t item => match item with
    | .config _ _ => t
    | .cls i e => t.set i.val e i.isLt) classes

/-- Two entries of a Class Table carry the same nonzero code (R162). -/
def hasDuplicateCode (classes : Vector ClassEntry 32) : Bool :=
  (List.finRange 32).any (fun i => (List.finRange 32).any (fun j =>
    i != j && classes[i].code != 0 && classes[i].code == classes[j].code))

/-- The table a CLASS write would leave fails the duplicate test of R162. -/
def classWriteDuplicates (s : State) (items : List EditItem) : Bool :=
  hasDuplicateCode (overlay (overlay s.mgt.classes s.mgt.edits) items)

/-- The POSITION-CONFIG items of a payload, none where an entry fails R161. -/
def configItems (s : State) (first count : Nat) (payload : Bytes) : Option (List EditItem) :=
  allSome ((List.range count).map (fun k =>
    match decodeConfig s.fwd.framing.testSize (entryAt 8 k payload) with
    | none => none
    | some c => if h : first + k < 48 then some (.config ⟨first + k, h⟩ c) else none))

/-- The CLASS items of a payload, none where an entry fails R159. -/
def classItems (first count : Nat) (payload : Bytes) : Option (List EditItem) :=
  allSome ((List.range count).map (fun k =>
    match decodeClass (entryAt 48 k payload) with
    | none => none
    | some e => if h : first + k < 32 then some (.cls ⟨first + k, h⟩ e) else none))

/-- An accepted write while the line is STILL is an event of R165. -/
def applyIfStill (s : State) : State := if s.fwd.lineState = .still then applyEvent s else s

/-- The positions after a Setup write (R6). -/
def recountPositions (positionCount : Nat) (s : State) : State :=
  { s with run := Vector.ofFn (fun p : Pos =>
      let r := s.run[p]
      if positionCount < p.val + 1 then { r with phase := .disabled }
      else if s.configs[p].enabled = true ∧ r.phase = .disabled then { r with phase := .vacant }
      else r) }

/-- An accepted Setup write: the record is replaced, the lock set, the positions follow position_count, and the passage may
be taken (R6, R169, R196). -/
def writeSetup (p : Setup) (s : State) : State :=
  passage (recountPositions p.positionCount { s with mgt.setup := p, mgt.setupLock := true })

end Sys2Proof.Machine
end

