-- ==== Sys2Proof/Machine/Requests.lean ====
section
/-! DEFINITION. The effect of every management request on a telegram that has passed R144 (09; 06, 07, 10, 11 for the requests
other blocks own), and the taking of a request by its code (R154). -/

namespace Sys2Proof.Machine

/-- The value of a one-byte payload; none where the length differs (R154). -/
def oneByte (payload : Bytes) : Option Nat :=
  match payload with
  | [b] => some b.toNat
  | _ => none

/-! ### Tables -/

/-- READ-ENTRIES (R156, R157, R198): RANGE for a payload length, a table code or a first index; then BUSY for KEY-STATUS
(LOG 14). -/
def takeRead (tag : Byte) (payload : Bytes) (s : State) : State :=
  if payload.length ≠ 4 then refuse tag .range s
  else
    match tableOf (fieldNat 0 1 payload) with
    | none => refuse tag .range s
    | some t =>
      let first := fieldNat 1 2 payload
      let given := countGiven t first (fieldNat 3 1 payload)
      if t.entries ≤ first then refuse tag .range s
      else if t = .keyStatus ∧ s.kst.busy = true then refuse tag .busy s
      else readEffect t given (replyOk tag (entriesFrom s t first given) s)

/-- The length and index test of a write (R160, test 2). -/
def writeFits (t : Table) (payload : Bytes) : Bool :=
  let count := fieldNat 3 1 payload
  1 ≤ count && payload.length == 4 + count * t.entrySize && fieldNat 1 2 payload + count ≤ t.entries

/-- A POSITION-CONFIG write (R160, R161, R163). -/
def takeConfigWrite (tag : Byte) (payload : Bytes) (s : State) : State :=
  let first := fieldNat 1 2 payload
  let count := fieldNat 3 1 payload
  if writeFits .positionConfig payload = false then refuse tag .range s
  else
    match configItems s first count payload with
    | none => refuse tag .range s
    | some items =>
      if editsFit s.mgt.edits items = false then refuse tag .full s
      else applyIfStill (stage items (replyOk tag (entriesFrom s .positionConfig first count) s))

/-- A CLASS write (R159, R160, R162, R163). -/
def takeClassWrite (tag : Byte) (payload : Bytes) (s : State) : State :=
  let first := fieldNat 1 2 payload
  let count := fieldNat 3 1 payload
  if writeFits .cls payload = false then refuse tag .range s
  else
    match classItems first count payload with
    | none => refuse tag .range s
    | some items =>
      if classWriteDuplicates s items = true then refuse tag .duplicate s
      else if editsFit s.mgt.edits items = false then refuse tag .full s
      else applyIfStill (stage items (replyOk tag (entriesFrom s .cls first count) s))

/-- A Setup write (R160, R169). -/
def takeSetupWrite (tag : Byte) (payload : Bytes) (s : State) : State :=
  if writeFits .setup payload = false then refuse tag .range s
  else if s.mgt.setupLock = true then refuse tag .locked s
  else
    match decodeSetup (entryAt 16 0 payload) with
    | none => refuse tag .range s
    | some p => writeSetup p (replyOk tag (encodeSetup s.mgt.setup) s)

/-- WRITE-ENTRIES (R160): a table code other than 1, 3 and 6 is refused RANGE. -/
def takeWrite (tag : Byte) (payload : Bytes) (s : State) : State :=
  match tableOf (fieldNat 0 1 payload) with
  | some .positionConfig => takeConfigWrite tag payload s
  | some .cls => takeClassWrite tag payload s
  | some .setup => takeSetupWrite tag payload s
  | some .positionState => refuse tag .range s
  | some .sighting => refuse tag .range s
  | some .revocation => refuse tag .range s
  | some .keyStatus => refuse tag .range s
  | some .device => refuse tag .range s
  | none => refuse tag .range s

/-- HOLD (R167). -/
def takeHold (tag : Byte) (s : State) : State := replyOk tag [] { s with mgt.hold := true }

/-- RELEASE-HOLD (R167), an event of R165 while STILL. -/
def takeReleaseHold (tag : Byte) (s : State) : State :=
  applyIfStill (replyOk tag [] { s with mgt.hold := false })

/-- DISCARD-STAGED (R167). -/
def takeDiscard (tag : Byte) (s : State) : State := replyOk tag [] { s with mgt.edits := [] }

/-! ### Notices and attention -/

/-- NOTICE-DRAIN (R172). -/
def takeDrain (tag : Byte) (payload : Bytes) (s : State) : State :=
  match oneByte payload with
  | none => refuse tag .range s
  | some m =>
    let n := min m Config.drainLimit
    replyOk tag ((s.mgt.notices.take n).flatMap encodeNotice) { s with mgt.notices := s.mgt.notices.drop n }

/-- ATTENTION-READ (R174). -/
def takeAttentionRead (tag : Byte) (s : State) : State :=
  replyOk tag [encodeAttention s.mgt.attention, encodeAttention s.mgt.mask] { s with mgt.attention := Attention.clear }

/-- ATTENTION-MASK (R174). -/
def takeAttentionMask (tag : Byte) (payload : Bytes) (s : State) : State :=
  match payload with
  | [b] => if 32 ≤ b.toNat then refuse tag .range s else replyOk tag [] { s with mgt.mask := attentionOf b }
  | _ => refuse tag .range s

/-! ### Requests that name a position -/

/-- The position of a one-byte payload; none for a wrong length or a number outside 1..48. -/
def namedPosition (payload : Bytes) : Option Pos :=
  match oneByte payload with
  | none => none
  | some n => posOfNumber n

/-- POSITION-RELEASE (R127). -/
def takeRelease (tag : Byte) (payload : Bytes) (s : State) : State :=
  match namedPosition payload with
  | none => refuse tag .range s
  | some p =>
    if s.run[p].phase = .disabled ∨ s.run[p].phase = .vacant then refuse tag .state s
    else replyOk tag [] (modRun p (fun r => { r with released := true }) s)

/-- POSITION-RECHALLENGE (R170). -/
def takeRechallenge (tag : Byte) (payload : Bytes) (s : State) : State :=
  match namedPosition payload with
  | none => refuse tag .range s
  | some p =>
    let r := s.run[p]
    if r.phase ≠ .held ∨ r.latch = true then refuse tag .state s
    else if r.identity = none then
      replyOk tag [] (ask p .ident none (modRun p (fun x => { x with phase := .identifying, sweepAge := 0 }) s))
    else if r.classIndex = none then refuse tag .state s
    else replyOk tag [] (callDue p .manual s)

/-! ### Revocation (06) -/

/-- A new entry affects a position (R108): CHALLENGING or HELD, with a matching identity, not REVOKED already. -/
def revocationHits (e : Revocation) (r : Runtime) : Bool :=
  (r.phase == .challenging || r.phase == .held) && r.verdict != .revoked &&
    (match r.identity with
      | none => false
      | some i => e.covers i)

/-- The treatment of an affected position (R108). -/
def revokePosition (p : Pos) (s : State) : State :=
  modRun p (fun r => { r with phase := .held }) (force p .revoked .revoked (abandon p s))

/-- The seated parts are treated in ascending order of position number (R108). -/
def revokeSeated (e : Revocation) (s : State) : State :=
  serveAll (fun p t => if revocationHits e t.run[p] = true then revokePosition p t else t) s

/-- The number of positions an insert forces to REVOKED (R107). -/
def revokedCount (e : Revocation) (s : State) : Nat := s.run.toList.countP (revocationHits e)

/-- REVOKE-INSERT (R107): range, equality, capacity, then the insert and the treatment of the seated parts. -/
def takeRevokeInsert (tag : Byte) (payload : Bytes) (s : State) : State :=
  if payload.length ≠ 12 then refuse tag .range s
  else
    match decodeRevocation payload with
    | none => refuse tag .range s
    | some e =>
      if s.revocations.contains e = true then refuse tag .duplicate s
      else if Config.revocationCapacity ≤ s.revocations.length then refuse tag .full s
      else
        replyOk tag (be 2 (revocationIndex e s.revocations) ++ be 2 (s.revocations.length + 1) ++ be 1 (revokedCount e s))
          (revokeSeated e { s with revocations := insertRevocation e s.revocations })

/-- REVOKE-REMOVE (R110). -/
def takeRevokeRemove (tag : Byte) (payload : Bytes) (s : State) : State :=
  if payload.length ≠ 12 then refuse tag .range s
  else
    match decodeRevocation payload with
    | none => refuse tag .range s
    | some e =>
      if s.revocations.contains e = true then
        replyOk tag (be 2 (s.revocations.idxOf e) ++ be 2 (s.revocations.length - 1))
          { s with revocations := s.revocations.erase e }
      else refuse tag .notFound s

/-- REVOKE-CLEAR (R111). -/
def takeRevokeClear (tag : Byte) (s : State) : State :=
  replyOk tag (be 2 s.revocations.length) { s with revocations := [] }

/-! ### Key operations (10) -/

/-- KEY-PROGRAM (R181). -/
def takeKeyProgram (tag : Byte) (payload : Bytes) (s : State) : State :=
  if payload.length ≠ 17 then refuse tag .range s
  else if h : fieldNat 0 1 payload < 16 then
    let slot : SlotNo := ⟨fieldNat 0 1 payload, h⟩
    if s.kst.isProtected slot = true then refuse tag .locked s
    else if s.kst.slots[slot] ≠ .blank then refuse tag .state s
    else if s.kst.busy = true then refuse tag .busy s
    else replyAccepted tag { s with kst.op := .programming slot (keyOf payload) (s.now + Config.programTicks) }
  else refuse tag .range s

/-- The highest slot of a page (R183). -/
def lastSlot (page : Fin 4) : SlotNo := ⟨4 * page.val + 3, by omega⟩

/-- KEY-ERASE (R183), with the abandonment of R77 at the acceptance. -/
def takeKeyErase (tag : Byte) (payload : Bytes) (s : State) : State :=
  match oneByte payload with
  | none => refuse tag .range s
  | some n =>
    if h : n < 4 then
      let page : Fin 4 := ⟨n, h⟩
      if s.kst.isProtected (lastSlot page) = true then refuse tag .locked s
      else if s.kst.busy = true then refuse tag .busy s
      else replyAccepted tag (eraseAbandon page { s with kst.op := .erasing page (s.now + Config.eraseTicks) })
    else refuse tag .range s

/-- KEY-PROTECT (R185). -/
def takeKeyProtect (tag : Byte) (payload : Bytes) (s : State) : State :=
  match oneByte payload with
  | none => refuse tag .range s
  | some b =>
    if 16 < b then refuse tag .range s
    else if s.kst.boundary ≤ b then refuse tag .locked s
    else if s.kst.busy = true then refuse tag .busy s
    else replyAccepted tag { s with kst.op := .protecting b (s.now + Config.protectTicks) }

/-- A code that names no management request (R154). -/
def takeUnknown (tag : Byte) (s : State) : State := refuse tag .unknown s

/-! ### Resets (11) -/

/-- The three kinds of reset (R191). -/
inductive ResetKind where
  | power
  | pin
  | line
deriving DecidableEq, Repr

/-- The cause a kind of reset leaves (R193). -/
def ResetKind.cause : ResetKind → ResetCause
  | .power => .power
  | .pin => .pin
  | .line => .line

/-- A line reset keeps what POR and pin reset return to the delivered values (11, Reset effects by owner). -/
def ResetKind.keeps : ResetKind → Bool
  | .power => false
  | .pin => false
  | .line => true

/-- The runtime halves after a reset: cleared, DISABLED or VACANT by R6 (R27). -/
def restingPositions (configs : Vector PosConfig 48) (positionCount : Nat) : Vector Runtime 48 :=
  Vector.ofFn (fun p : Pos => Runtime.cleared (restPhase configs[p] positionCount p))

/-- The key store after a reset whose abort has been taken: no result, and the epoch update requested (R180, R193). -/
def KeyStore.afterReset (now : Nat) (k : KeyStore) : KeyStore :=
  KeyStore.requestEpoch now { k with op := .idle, epochPending := false, lastResult := .none }

/-- The management unit after a reset (R176, R198). -/
def Mgt.afterReset (kind : ResetKind) (m : Mgt) : Mgt :=
  if kind.keeps then { m with edits := [], hold := false, notices := [], attention := Attention.clear, resetCause := kind.cause }
  else Mgt.initial kind.cause

/-- A reset takes effect as one event (R191, R193; each block's own rule: R27, R55, R102, R103, R115, R130, R152, R176,
R190, R195). A key operation still in flight is aborted first (R189). -/
def resetTo (kind : ResetKind) (s : State) : State :=
  let a := abortOperation s
  let configs := if kind.keeps then s.configs else Vector.replicate 48 PosConfig.default
  let mgt := s.mgt.afterReset kind
  { a with
    supply := .on, resetAsserted := false, device := .starting, startCount := 0, configs,
    run := restingPositions configs mgt.setup.positionCount, sch := Sch.initial,
    sightings := if kind.keeps then emptyHolders s.sightings else [],
    revocations := if kind.keeps then s.revocations else [],
    gatedMap := Vector.replicate 48 false,
    fwd := if kind.keeps then Fwd.initial s.fwd.dSending s.fwd.uSending else Fwd.initial none none,
    mgt, kst := a.kst.afterReset s.now }

/-- LINE-RESET (R175): the OK answer is sent before the reset takes effect, past a telegram already in sending, and the
others waiting are dropped (LOG 17). -/
def takeLineReset (tag : Byte) (s : State) : State :=
  resetTo .line { s with fwd.uSending := some { bytes := replyTelegram tag codeOk [], opensGap := false }, fwd.uReady := [] }

/-! ### Taking a request by its code (R154) -/

/-- MGT takes a request to node 0. -/
def takeRequest (code tag : Byte) (payload : Bytes) (s : State) : State :=
  if code = codeReadEntries then takeRead tag payload s
  else if code = codeWriteEntries then takeWrite tag payload s
  else if code = codeHold then takeHold tag s
  else if code = codeReleaseHold then takeReleaseHold tag s
  else if code = codeDiscardStaged then takeDiscard tag s
  else if code = codeNoticeDrain then takeDrain tag payload s
  else if code = codeAttentionRead then takeAttentionRead tag s
  else if code = codeAttentionMask then takeAttentionMask tag payload s
  else if code = codePositionRelease then takeRelease tag payload s
  else if code = codePositionRechallenge then takeRechallenge tag payload s
  else if code = codeRevokeInsert then takeRevokeInsert tag payload s
  else if code = codeRevokeRemove then takeRevokeRemove tag payload s
  else if code = codeRevokeClear then takeRevokeClear tag s
  else if code = codeKeyProgram then takeKeyProgram tag payload s
  else if code = codeKeyErase then takeKeyErase tag payload s
  else if code = codeKeyProtect then takeKeyProtect tag payload s
  else if code = codeLineReset then takeLineReset tag s
  else takeUnknown tag s

end Sys2Proof.Machine
end

