-- ==== Sys2Proof/Machine/Bus.lean ====
section
/-! DEFINITION. The forwarding unit FWD (08): cycle telegrams, returns, the gap and the line state, the sharing of port D, the
routing of service telegrams and port U. -/

namespace Sys2Proof.Machine

/-! ### Cycle telegrams (R133 to R136) -/

/-- The boundary of a good cycle telegram at FWD (R133, R135): the framing stands locked, the verifier cycle count rises,
the line is CYCLING, the still timer restarts, the gap closes and the earlier expectation is discarded. -/
def openBoundary (framing : Framing) (s : State) : State :=
  { s with fwd := { s.fwd with framing, cycleCount := s.fwd.cycleCount + 1, lineState := .cycling, stillTimer := some 0,
                               gap := none, expectation := none } }

/-- The expectation a cycle telegram sets when its sending begins (R135, R137). -/
def expectationOf (body : Bytes) : Expectation :=
  let h := cycleHeader body
  { cycleNumber := h.cycleNumber, slotCount := h.slotCount, slotSize := h.slotSize }

/-- A cycle telegram begins to be sent on port D (R135). -/
def sendCycle (w : WaitingCycle) (s : State) : State :=
  { s with fwd := { s.fwd with dSending := some w.bytes, dWaiting := none, expectation := some w.expectation } }

/-- A cycle telegram ready to be sent: at once where port D is free, else it waits and replaces one that waits (R136). -/
def readyCycle (free : Bool) (w : WaitingCycle) (s : State) : State :=
  if free = true ∨ s.fwd.dSending = none then sendCycle w s else { s with fwd.dWaiting := some w }

/-- The gating stage (R117): the gated map is replaced and the telegram made ready. -/
def gateAndSend (body : Bytes) (free : Bool) (s : State) : State :=
  readyCycle free { bytes := gatedTelegram s body, expectation := expectationOf body } { s with gatedMap := gatedMapOf s }

/-- A CYCLE telegram on port U (R117, R133 to R136), its body the telegram after its kind byte. -/
def takeCycle (body : Bytes) (free : Bool) (s : State) : State :=
  match cycleFraming s.fwd.framing body with
  | none => latchFraming s
  | some g => gateAndSend body free (boundaryWork (openBoundary g s))

/-- The sending under way on port D ends, and a waiting cycle telegram is sent (R136). -/
def sendWaiting (s : State) : State :=
  match s.fwd.dWaiting with
  | none => s
  | some w => sendCycle w s

/-! ### Returns (R137, R138) -/

/-- The return is taken against an expectation (R137). -/
def returnMatches (e : Expectation) (body : Bytes) : Bool :=
  checkGood (kindCycleReturn :: body) && lengthAgrees body && expectationOf body == e

/-- The return has the length its expectation gives (R138). -/
def expectedLength (e : Expectation) (body : Bytes) : Bool :=
  body.length + 1 == 5 + e.slotCount * e.slotSize + 2

/-- The telegram sent upstream: the bytes before the last two, the trailer and a new check sequence (R137, R138, R151). -/
def upstreamReturn (damaged : Bool) (body : Bytes) (s : State) : Bytes :=
  withCheck (kindCycleReturn :: body.take (body.length - 2) ++ trailer damaged s)

/-- A return is sent upstream with its status slot as the state stands. -/
def forwardReturn (damaged opensGap : Bool) (body : Bytes) (s : State) : State :=
  emitU (upstreamReturn damaged body s) opensGap s

/-- A CYCLE-RETURN on port D (R137, R138). -/
def takeReturn (body : Bytes) (s : State) : State :=
  match s.fwd.expectation with
  | none => forwardReturn true false body s
  | some e =>
    if returnMatches e body = true then
      forwardReturn false true body (takeInputs body { s with fwd.expectation := none })
    else if expectedLength e body = true then forwardReturn true true body { s with fwd.expectation := none }
    else forwardReturn true false body s

/-! ### Line state (R140) -/

/-- The still timer has reached still_timeout while the line is CYCLING. -/
def stillDue (s : State) : Bool :=
  s.fwd.lineState == .cycling &&
    (match s.fwd.stillTimer with
      | none => false
      | some n => s.mgt.setup.stillTimeout ≤ n)

/-- The line becomes STILL: the gap closes, the expectation becomes none, and the pending edit set may apply (R140, R165). -/
def becomeStill (s : State) : State :=
  if stillDue s = true then
    applyEvent { s with fwd := { s.fwd with lineState := .still, gap := none, expectation := none } }
  else s

/-! ### Sharing port D (R141 to R143) -/

/-- The master has work waiting (R142). -/
def masterHasWork (s : State) : Bool := !s.fwd.masterQueue.isEmpty

/-- The master is served: the oldest telegram of its queue is sent (R142). -/
def serveMaster (s : State) : State :=
  match s.fwd.masterQueue with
  | [] => s
  | t :: rest => sendD t { s with fwd := { s.fwd with masterQueue := rest, lastServed := .master } }

/-- The verifier is served: SCH fills the opportunity or turn (R64, R142). -/
def serveVerifier (s : State) : State :=
  match choose s with
  | none => s
  | some c => fill c { s with fwd.lastServed := .verifier }

/-- The side an opportunity or turn goes to: the preferred side where it has work, else the other where that has. -/
def sideServed (preferred : Side) (s : State) : Option Side :=
  match preferred with
  | .master => if masterHasWork s then some .master else if schHasWork s then some .verifier else none
  | .verifier => if schHasWork s then some .verifier else if masterHasWork s then some .master else none

/-- Serve a side. -/
def serve (side : Side) (s : State) : State :=
  match side with
  | .master => serveMaster s
  | .verifier => serveVerifier s

/-- The owner of the next opportunity of a gap (R141, R142). -/
def Gap.owner (g : Gap) : Side := if g.used + 1 ≤ g.slots - g.verifierSlots then .master else .verifier

/-- The next opportunity of an open gap, with port D transmit free and no cycle telegram waiting for it (R136, R142). -/
def takeOpportunity (s : State) : State :=
  match s.fwd.gap with
  | none => s
  | some g =>
    if s.fwd.lineState = .cycling ∧ s.fwd.dWaiting = none ∧ g.used < g.slots then
      match sideServed g.owner s with
      | none => s
      | some side => serve side { s with fwd.gap := some { g with used := g.used + 1 } }
    else s

/-- The side that is not the last-served side (R143). -/
def Side.other : Side → Side
  | .master => .verifier
  | .verifier => .master

/-- A turn on port D while the line is STILL (R143). -/
def takeTurn (s : State) : State :=
  if s.fwd.lineState = .still ∧ s.fwd.dWaiting = none then
    match sideServed s.fwd.lastServed.other s with
    | none => s
    | some side => serve side s
  else s

/-! ### Port U (R141, R149) -/

/-- The gap opens with the opportunities Setup gives, while the line is CYCLING (R141, R169); one that is open starts anew with
no opportunity used (DESIGN CHOICE, unsafe: LOG 26). -/
def openGap (s : State) : State :=
  if s.fwd.lineState = .cycling then
    { s with fwd.gap := some { used := 0, slots := s.mgt.setup.gapSlots, verifierSlots := s.mgt.setup.verifierSlots } }
  else s

/-- The sending under way on port U is over: a return that opens the gap has been sent (R141; LOG 11). -/
def endSendingU (s : State) : State :=
  match s.fwd.uSending with
  | none => s
  | some u => if u.opensGap then openGap s else s

/-- The next telegram in order of readiness begins to be sent (R149). -/
def nextSendingU (s : State) : State :=
  match s.fwd.uReady with
  | [] => { s with fwd.uSending := none }
  | u :: rest => { s with fwd := { s.fwd with uSending := some u, uReady := rest } }

/-- Port U transmit becomes free (R149). -/
def freePortU (s : State) : State := nextSendingU (endSendingU s)

/-! ### Routing of service telegrams (R144 to R148) -/

/-- FWD answers a node request itself: BLOCKED or SEGMENT-BUSY (R146, R147). -/
def answerForNode (node tag code : Byte) (s : State) : State :=
  emitU (serviceTelegram node originMaster tag code []) false s

/-- A request to a node joins the master service queue, or is answered SEGMENT-BUSY (R147). -/
def queueForNode (bytes : Bytes) (t : Service) (s : State) : State :=
  if s.fwd.masterQueue.length < Config.masterQueueCapacity then
    { s with fwd.masterQueue := s.fwd.masterQueue ++ [bytes] }
  else answerForNode t.node t.tag codeSegmentBusy s

/-- The routes of port U, in the order of R145. -/
def routeU (bytes : Bytes) (t : Service) (s : State) : State :=
  if isReplyCode t.code = true then s
  else if t.origin = originVerifier then s
  else if t.node = 0 then takeRequest t.code t.tag t.payload s
  else if t.code = codeTagWrite then answerForNode t.node t.tag codeBlocked s
  else queueForNode bytes t s

/-- A SERVICE telegram on port U (R144, R145). -/
def takeServiceU (bytes : Bytes) (s : State) : State :=
  match parseService bytes with
  | none => s
  | some t => routeU bytes t s

/-- The routes of port D, in the order of R148. -/
def routeD (bytes : Bytes) (t : Service) (s : State) : State :=
  if isReplyCode t.code = false then s
  else if t.node = 0 then s
  else if t.origin = originMaster then emitU bytes false s
  else takeReply { node := t.node, tag := t.tag, code := t.code, payload := t.payload } s

/-- A SERVICE telegram on port D (R144, R148). -/
def takeServiceD (bytes : Bytes) (s : State) : State :=
  match parseService bytes with
  | none => s
  | some t => routeD bytes t s

/-- FWD takes each kind only on the port that suits it, and discards the rest (R131). A cycle telegram is ready with port D
free here; the row CYCLE says whether it is. -/
def takeTelegram (port : Port) (bytes : Bytes) (s : State) : State :=
  match port, bytes with
  | _, [] => s
  | .u, kind :: body =>
    if kind = kindCycle then takeCycle body true s
    else if kind = kindService then takeServiceU bytes s
    else s
  | .d, kind :: body =>
    if kind = kindCycleReturn then takeReturn body s
    else if kind = kindService then takeServiceD bytes s
    else s

end Sys2Proof.Machine
end

