-- ==== Sys2Proof/Machine/CycleRows.lean ====
section
/-! DEFINITION. The meanings of the cycle path's rows: CYCLE, DECAY_STEP, PASSAGE_TO_RUNNING, CYCLE_TELEGRAM_SEND, CYCLE_RETURN,
SETTLING_COMPLETE, LOSS_PROCESSING and STILL_TIMEOUT. -/

namespace Sys2Proof.Machine

/-- CYCLE (R135). -/
def execCycle (body : Bytes) (portFree : Bool) (s : State) : Host.Outcome State Fault Refusal :=
  whenLive (fun t => takeCycle body portFree t) s

/-- The decay count of a position reaches decay_period at this advance (R25, R48); while the line is STILL nothing advances
it (R140). -/
def decayDue (s : State) (p : Pos) : Bool :=
  s.device == .running && s.fwd.lineState == .cycling && decays s.run[p] &&
    (match classOf s s.run[p] with
      | none => false
      | some e => e.decayPeriod != 0 && e.decayPeriod ≤ min 65535 (s.run[p].decayCount + 1))

/-- DECAY_STEP (R48): the advance of one position that reaches decay_period, with its decay step (LOG 4). -/
def execDecayStep (p : Pos) (s : State) : Host.Outcome State Fault Refusal :=
  whenLive (fun t => if decayDue t p then advanceDecay p t else t) s

/-- PASSAGE_TO_RUNNING (R196). -/
def execPassageToRunning (s : State) : Host.Outcome State Fault Refusal := whenLive passage s

/-- CYCLE_TELEGRAM_SEND (R136). -/
def execCycleTelegramSend (s : State) : Host.Outcome State Fault Refusal := whenLive sendWaiting s

/-- CYCLE_RETURN (R137, R138). -/
def execCycleReturn (body : Bytes) (s : State) : Host.Outcome State Fault Refusal := whenLive (takeReturn body) s

/-- A qualifying input would complete the settling of a position (R10). -/
def settlingDue (s : State) (p : Pos) : Bool :=
  s.device == .running && s.run[p].phase == .settling && s.configs[p].settleCycles ≤ s.run[p].settleCount + 1

/-- SETTLING_COMPLETE (R10): the qualifying input of one position that brings the settle count to settle_cycles (LOG 4). -/
def execSettlingComplete (p : Pos) (counter : BitVec 16) (s : State) : Host.Outcome State Fault Refusal :=
  whenLive (fun t => if settlingDue t p then completeSettling p counter t else t) s

/-- The phases in which the loss count is kept (R11). -/
def Phase.countsLoss : Phase → Bool
  | .disabled => false
  | .vacant => true
  | .settling => true
  | .identifying => true
  | .challenging => true
  | .held => true
  | .lost => false

/-- A MISSING input would bring the loss count of a position to lost_cycles (R11). -/
def lossDue (s : State) (p : Pos) : Bool :=
  s.device == .running && s.run[p].phase.countsLoss && s.mgt.setup.lostCycles ≤ s.run[p].lossCount + 1

/-- LOSS_PROCESSING (R8, R15): the MISSING input of one position that brings the loss count to lost_cycles (LOG 4). -/
def execLossProcessing (p : Pos) (s : State) : Host.Outcome State Fault Refusal :=
  whenLive (fun t => if lossDue t p then losePart p t else t) s

/-- STILL_TIMEOUT (R140). -/
def execStillTimeout (s : State) : Host.Outcome State Fault Refusal := whenLive becomeStill s

end Sys2Proof.Machine
end

