-- ==== Sys2Proof/Machine/KeyRows.lean ====
section
/-! DEFINITION. The meanings of the key store completions (10): PROGRAM_COMPLETION, ERASE_COMPLETION, PROTECT_COMPLETION and
EPOCH_UPDATE_COMPLETION. Each acts from its completion tick on (LOG 3). -/

namespace Sys2Proof.Machine

/-- A key_missing position of a slot (R182, step 4): HELD, its class naming the slot. -/
def keyMissingOf (slot : SlotNo) (s : State) (p : Pos) : Bool :=
  let r := s.run[p]
  r.phase == .held && r.keyMissing &&
    (match classOf s r with
      | none => false
      | some e => e.keySlot == slot)

/-- One key_missing position is served: the flag cleared, and unless latched a DUE request (R182, step 4). -/
def serveKeyMissing (p : Pos) (s : State) : State :=
  let t := modRun p (fun r => { r with keyMissing := false }) s
  if s.run[p].latch = true then t else callDue p .due t

/-- The key_missing positions of a slot are served in ascending order (R182, step 4). -/
def serveSlot (slot : SlotNo) (s : State) : State :=
  serveAll (fun p t => if keyMissingOf slot t p = true then serveKeyMissing p t else t) s

/-- A pending epoch update starts (R186). -/
def startPendingEpoch (s : State) : State := { s with kst := s.kst.startPending s.now }

/-- The completion of a program with a read-back outcome (R182). -/
def completeProgram (agrees : Bool) (slot : SlotNo) (key : Key) (s : State) : State :=
  let t := verifyAll (latchKeyDone
    { s with kst := { s.kst with slots := s.kst.slots.set slot.val (if agrees then .programmed key else .faulty) slot.isLt,
                                 lastResult := if agrees then .programmed else .programFaulty, op := .idle } })
  startPendingEpoch (if agrees then serveSlot slot t else t)

/-- The completion of an erase with its four checks (R184). -/
def completeErase (checks : Vector Bool 4) (page : Fin 4) (s : State) : State :=
  startPendingEpoch (verifyAll (latchKeyDone
    { s with kst := { s.kst with slots := setPage page (fun i => if checks[i] then .blank else .faulty) s.kst.slots,
                                 lastResult := if checks.toList.all id then .erased else .eraseFaulty, op := .idle } }))

/-- The completion of a change of the boundary (R185). -/
def completeProtect (boundary : Nat) (s : State) : State :=
  startPendingEpoch (verifyAll (latchKeyDone
    { s with kst := { s.kst with boundary, lastResult := .protectDone, op := .idle } }))

/-- The completion of an epoch update (R187). -/
def completeEpoch (s : State) : State :=
  verifyAll { s with kst := { s.kst with epoch := s.kst.epoch + 1, op := .idle } }

/-- PROGRAM_COMPLETION (R182). -/
def execProgramCompletion (agrees : Bool) (s : State) : Host.Outcome State Fault Refusal :=
  whenLive (fun t => match t.kst.op with
    | .programming slot key due => if due ≤ t.now then completeProgram agrees slot key t else t
    | .idle => t
    | .erasing _ _ => t
    | .protecting _ _ => t
    | .epochUpdate _ => t) s

/-- ERASE_COMPLETION (R184). -/
def execEraseCompletion (checks : Vector Bool 4) (s : State) : Host.Outcome State Fault Refusal :=
  whenLive (fun t => match t.kst.op with
    | .erasing page due => if due ≤ t.now then completeErase checks page t else t
    | .idle => t
    | .programming _ _ _ => t
    | .protecting _ _ => t
    | .epochUpdate _ => t) s

/-- PROTECT_COMPLETION (R185). -/
def execProtectCompletion (s : State) : Host.Outcome State Fault Refusal :=
  whenLive (fun t => match t.kst.op with
    | .protecting boundary due => if due ≤ t.now then completeProtect boundary t else t
    | .idle => t
    | .programming _ _ _ => t
    | .erasing _ _ => t
    | .epochUpdate _ => t) s

/-- EPOCH_UPDATE_COMPLETION (R187). -/
def execEpochUpdateCompletion (s : State) : Host.Outcome State Fault Refusal :=
  whenLive (fun t => match t.kst.op with
    | .epochUpdate due => if due ≤ t.now then completeEpoch t else t
    | .idle => t
    | .programming _ _ _ => t
    | .erasing _ _ => t
    | .protecting _ _ => t) s

end Sys2Proof.Machine
end

