-- ==== Sys2Proof/Machine/ManagementRows.lean ====
section
/-! DEFINITION. The meanings of the management requests (09): each row's telegram is tested under R144 and its request taken
by MGT; a damaged one is discarded. -/

namespace Sys2Proof.Machine

/-- A request to node 0 with a row's code: discarded where R144 fails, else taken (R145, test 3). -/
def onRequest (code : Byte) (f : Frame) (take : State → State) (s : State) : Host.Outcome State Fault Refusal :=
  whenLive (fun t => if f.good 0 originMaster code = true then take t else t) s

/-- READ_ENTRIES (R156). -/
def execReadEntries (f : Frame) (s : State) : Host.Outcome State Fault Refusal :=
  onRequest codeReadEntries f (takeRead f.tag f.payload) s

/-- WRITE_ENTRIES (R160). -/
def execWriteEntries (f : Frame) (s : State) : Host.Outcome State Fault Refusal :=
  onRequest codeWriteEntries f (takeWrite f.tag f.payload) s

/-- HOLD (R167). -/
def execHold (f : Frame) (s : State) : Host.Outcome State Fault Refusal :=
  onRequest codeHold f (takeHold f.tag) s

/-- RELEASE_HOLD (R167). -/
def execReleaseHold (f : Frame) (s : State) : Host.Outcome State Fault Refusal :=
  onRequest codeReleaseHold f (takeReleaseHold f.tag) s

/-- DISCARD_STAGED (R167). -/
def execDiscardStaged (f : Frame) (s : State) : Host.Outcome State Fault Refusal :=
  onRequest codeDiscardStaged f (takeDiscard f.tag) s

/-- NOTICE_DRAIN (R172). -/
def execNoticeDrain (f : Frame) (s : State) : Host.Outcome State Fault Refusal :=
  onRequest codeNoticeDrain f (takeDrain f.tag f.payload) s

/-- ATTENTION_READ (R174). -/
def execAttentionRead (f : Frame) (s : State) : Host.Outcome State Fault Refusal :=
  onRequest codeAttentionRead f (takeAttentionRead f.tag) s

/-- ATTENTION_MASK (R174). -/
def execAttentionMask (f : Frame) (s : State) : Host.Outcome State Fault Refusal :=
  onRequest codeAttentionMask f (takeAttentionMask f.tag f.payload) s

/-- POSITION_RELEASE (R127). -/
def execPositionRelease (f : Frame) (s : State) : Host.Outcome State Fault Refusal :=
  onRequest codePositionRelease f (takeRelease f.tag f.payload) s

/-- POSITION_RECHALLENGE (R170). -/
def execPositionRechallenge (f : Frame) (s : State) : Host.Outcome State Fault Refusal :=
  onRequest codePositionRechallenge f (takeRechallenge f.tag f.payload) s

/-- REVOKE_INSERT (R107, R108). -/
def execRevokeInsert (f : Frame) (s : State) : Host.Outcome State Fault Refusal :=
  onRequest codeRevokeInsert f (takeRevokeInsert f.tag f.payload) s

/-- REVOKE_REMOVE (R110). -/
def execRevokeRemove (f : Frame) (s : State) : Host.Outcome State Fault Refusal :=
  onRequest codeRevokeRemove f (takeRevokeRemove f.tag f.payload) s

/-- REVOKE_CLEAR (R111). -/
def execRevokeClear (f : Frame) (s : State) : Host.Outcome State Fault Refusal :=
  onRequest codeRevokeClear f (takeRevokeClear f.tag) s

/-- KEY_PROGRAM (R181). -/
def execKeyProgram (f : Frame) (s : State) : Host.Outcome State Fault Refusal :=
  onRequest codeKeyProgram f (takeKeyProgram f.tag f.payload) s

/-- KEY_ERASE (R183, R77). -/
def execKeyErase (f : Frame) (s : State) : Host.Outcome State Fault Refusal :=
  onRequest codeKeyErase f (takeKeyErase f.tag f.payload) s

/-- KEY_PROTECT (R185). -/
def execKeyProtect (f : Frame) (s : State) : Host.Outcome State Fault Refusal :=
  onRequest codeKeyProtect f (takeKeyProtect f.tag f.payload) s

/-- UNKNOWN_REQUEST (R154): a service telegram to node 0 with its code, routed by R145 (a code of 0x80 or above is a reply
and is discarded) and taken by its code. -/
def execUnknownRequest (code : Byte) (f : Frame) (s : State) : Host.Outcome State Fault Refusal :=
  onRequest code f (fun t => if isReplyCode code = true then t else takeRequest code f.tag f.payload t) s

end Sys2Proof.Machine
end

