-- ==== Sys2Proof/Machine/PortRows.lean ====
section
/-! DEFINITION. The meanings of the port rows: GAP_OPPORTUNITY, STILL_TURN, PORT_U_TRANSMIT, TELEGRAM_WRONG_KIND,
MASTER_NODE_REQUEST, TAG_WRITE and NODE_REPLY_FORWARD (08). -/

namespace Sys2Proof.Machine

/-- GAP_OPPORTUNITY (R142). -/
def execGapOpportunity (s : State) : Host.Outcome State Fault Refusal := whenLive takeOpportunity s

/-- STILL_TURN (R143). -/
def execStillTurn (s : State) : Host.Outcome State Fault Refusal := whenLive takeTurn s

/-- PORT_U_TRANSMIT (R149). -/
def execPortUTransmit (s : State) : Host.Outcome State Fault Refusal := whenLive freePortU s

/-- TELEGRAM_WRONG_KIND (R131). -/
def execTelegramWrongKind (port : Port) (bytes : Bytes) (s : State) : Host.Outcome State Fault Refusal :=
  whenLive (takeTelegram port bytes) s

/-- MASTER_NODE_REQUEST (R144, R145, R147): any SERVICE telegram on port U. -/
def execMasterNodeRequest (body : Bytes) (s : State) : Host.Outcome State Fault Refusal :=
  whenLive (takeServiceU (kindService :: body)) s

/-- TAG_WRITE (R146). -/
def execTagWrite (node : Byte) (f : Frame) (s : State) : Host.Outcome State Fault Refusal :=
  whenLive (takeServiceU (f.telegram node originMaster codeTagWrite)) s

/-- NODE_REPLY_FORWARD (R144, R148): any SERVICE telegram on port D. -/
def execNodeReplyForward (body : Bytes) (s : State) : Host.Outcome State Fault Refusal :=
  whenLive (takeServiceD (kindService :: body)) s

end Sys2Proof.Machine
end

