-- ==== Sys2Proof/Machine/Resets.lean ====
section
/-! DEFINITION. The meanings of POR, POWER_LOSS, RESET_ASSERT, PIN_RESET and LINE_RESET (11, 10). -/

namespace Sys2Proof.Machine

/-- The sendings under way are broken off and the key operation in flight is aborted (R192, R190). -/
def breakOff (s : State) : State :=
  abortOperation { s with fwd := { s.fwd with dSending := none, dWaiting := none, uSending := none, uReady := [] } }

/-- POR (R191): the supply has risen. With the RESET line released the reset takes effect; with the line held it waits for
the release (LOG 16). -/
def execPor (s : State) : Host.Outcome State Fault Refusal :=
  .next (if s.resetAsserted = true then { breakOff s with supply := .risen } else resetTo .power s)

/-- POWER_LOSS (R190). -/
def execPowerLoss (s : State) : Host.Outcome State Fault Refusal := .next { breakOff s with supply := .off }

/-- RESET_ASSERT (R192): with power present the traffic stops and the key operation is aborted. -/
def execResetAssert (s : State) : Host.Outcome State Fault Refusal :=
  .next (if s.live = true then { breakOff s with resetAsserted := true } else { s with resetAsserted := true })

/-- PIN_RESET (R191): the release of the RESET line. With power present it is the pin reset; where the supply has risen
meanwhile it is the POR; without power the line is only released. A release without an assertion is no event (LOG 3). -/
def execPinReset (s : State) : Host.Outcome State Fault Refusal :=
  .next (if s.resetAsserted = false then s
    else
      match s.supply with
      | .on => resetTo .pin s
      | .risen => resetTo .power s
      | .off => { s with resetAsserted := false })

/-- LINE_RESET (R175). -/
def execLineReset (f : Frame) (s : State) : Host.Outcome State Fault Refusal :=
  whenLive (fun t => if f.good 0 originMaster codeLineReset then takeLineReset f.tag t else t) s

end Sys2Proof.Machine
end

