-- ==== Sys2Proof/Machine/VerifierRows.lean ====
section
/-! DEFINITION. The meanings of IDENT, ANSWER, NO_TAG and DEADLINE_EXPIRY (03). -/

namespace Sys2Proof.Machine

/-- A verifier reply of a code on port D (R144, R148): discarded damaged or from node 0, else handed to SCH. -/
def takeVerifierReply (node code : Byte) (f : Frame) (s : State) : State :=
  if f.good node originVerifier code = true ∧ node ≠ 0 then
    takeReply { node, tag := f.tag, code, payload := f.payload } s
  else s

/-- IDENT (R70). -/
def execIdent (node : Byte) (f : Frame) (s : State) : Host.Outcome State Fault Refusal :=
  whenLive (takeVerifierReply node codeIdent f) s

/-- ANSWER (R71). -/
def execAnswer (node : Byte) (f : Frame) (s : State) : Host.Outcome State Fault Refusal :=
  whenLive (takeVerifierReply node codeAnswer f) s

/-- NO_TAG (R74). -/
def execNoTag (node : Byte) (f : Frame) (s : State) : Host.Outcome State Fault Refusal :=
  whenLive (takeVerifierReply node codeNoTag f) s

/-- The deadline of a record in ISSUED is reached: the expiry of R73. Before it, and in the other states, it does not run
(R61; LOG 3). -/
def takeDeadline (i : RecNo) (s : State) : State :=
  match s.sch.records[i] with
  | none => s
  | some rec => if rec.state = .issued ∧ rec.deadline ≤ s.now then expire i rec s else s

/-- DEADLINE_EXPIRY (R73). -/
def execDeadlineExpiry (r : RecNo) (s : State) : Host.Outcome State Fault Refusal := whenLive (takeDeadline r) s

end Sys2Proof.Machine
end

