-- ==== Sys2Proof/Machine/Dispatch.lean ====
section
/-! DEFINITION. One arm for each command: a direct call of its meaning. -/

namespace Sys2Proof.Machine

def exec (i : Instr) (s : State) : Host.Outcome State Fault Refusal :=
  match i with
  | .por => Sys2Proof.Machine.execPor s
  | .powerLoss => Sys2Proof.Machine.execPowerLoss s
  | .resetAssert => Sys2Proof.Machine.execResetAssert s
  | .pinReset => Sys2Proof.Machine.execPinReset s
  | .lineReset f => Sys2Proof.Machine.execLineReset f s
  | .cycle body portFree => Sys2Proof.Machine.execCycle body portFree s
  | .decayStep p => Sys2Proof.Machine.execDecayStep p s
  | .passageToRunning => Sys2Proof.Machine.execPassageToRunning s
  | .cycleTelegramSend => Sys2Proof.Machine.execCycleTelegramSend s
  | .cycleReturn body => Sys2Proof.Machine.execCycleReturn body s
  | .settlingComplete p counter => Sys2Proof.Machine.execSettlingComplete p counter s
  | .lossProcessing p => Sys2Proof.Machine.execLossProcessing p s
  | .stillTimeout => Sys2Proof.Machine.execStillTimeout s
  | .gapOpportunity => Sys2Proof.Machine.execGapOpportunity s
  | .stillTurn => Sys2Proof.Machine.execStillTurn s
  | .portUTransmit => Sys2Proof.Machine.execPortUTransmit s
  | .telegramWrongKind port bytes => Sys2Proof.Machine.execTelegramWrongKind port bytes s
  | .masterNodeRequest body => Sys2Proof.Machine.execMasterNodeRequest body s
  | .tagWrite node f => Sys2Proof.Machine.execTagWrite node f s
  | .nodeReplyForward body => Sys2Proof.Machine.execNodeReplyForward body s
  | .ident node f => Sys2Proof.Machine.execIdent node f s
  | .answer node f => Sys2Proof.Machine.execAnswer node f s
  | .noTag node f => Sys2Proof.Machine.execNoTag node f s
  | .deadlineExpiry r => Sys2Proof.Machine.execDeadlineExpiry r s
  | .readEntries f => Sys2Proof.Machine.execReadEntries f s
  | .writeEntries f => Sys2Proof.Machine.execWriteEntries f s
  | .hold f => Sys2Proof.Machine.execHold f s
  | .releaseHold f => Sys2Proof.Machine.execReleaseHold f s
  | .discardStaged f => Sys2Proof.Machine.execDiscardStaged f s
  | .noticeDrain f => Sys2Proof.Machine.execNoticeDrain f s
  | .attentionRead f => Sys2Proof.Machine.execAttentionRead f s
  | .attentionMask f => Sys2Proof.Machine.execAttentionMask f s
  | .positionRelease f => Sys2Proof.Machine.execPositionRelease f s
  | .positionRechallenge f => Sys2Proof.Machine.execPositionRechallenge f s
  | .revokeInsert f => Sys2Proof.Machine.execRevokeInsert f s
  | .revokeRemove f => Sys2Proof.Machine.execRevokeRemove f s
  | .revokeClear f => Sys2Proof.Machine.execRevokeClear f s
  | .keyProgram f => Sys2Proof.Machine.execKeyProgram f s
  | .keyErase f => Sys2Proof.Machine.execKeyErase f s
  | .keyProtect f => Sys2Proof.Machine.execKeyProtect f s
  | .unknownRequest code f => Sys2Proof.Machine.execUnknownRequest code f s
  | .programCompletion agrees => Sys2Proof.Machine.execProgramCompletion agrees s
  | .eraseCompletion checks => Sys2Proof.Machine.execEraseCompletion checks s
  | .protectCompletion => Sys2Proof.Machine.execProtectCompletion s
  | .epochUpdateCompletion => Sys2Proof.Machine.execEpochUpdateCompletion s

end Sys2Proof.Machine
end

