-- ==== Sys2Proof/Safety.lean ====
section
/-! DEFINITION. What the claims are stated in: the bounds and relations the manual promises of every state, the tests of
telegrams read byte by byte, and how a command's answer and its frame are said. -/

namespace Sys2Proof.Machine

/-! ### Promises of the manual about every state -/

/-- Every score lies between -1000 and +1000 (R28). -/
def ScoresInRange (s : State) : Prop := ∀ p : Pos, -1000 ≤ s.run[p].score ∧ s.run[p].score ≤ 1000

/-- The queues and lists hold no more than the manual gives them: 32 notices (R171), 64 staged items (R164), 4 telegrams in
the master service queue (R147), 512 revocations (R105), a start count up to 8 (R195). -/
structure QueuesFit (s : State) : Prop where
  notices : s.mgt.notices.length ≤ 32
  edits : s.mgt.edits.length ≤ 64
  master : s.fwd.masterQueue.length ≤ 4
  revocations : s.revocations.length ≤ 512
  startCount : s.startCount ≤ 8

/-- The revocation entries stand in strictly ascending order of their keys (R105). -/
def RevocationsAscend (s : State) : Prop := s.revocations.Pairwise (fun a b => a.before b = true)

/-- The operation in flight reaches no protected slot, and a change of the boundary lowers it (R178, R181, R183, R185). -/
def OperationGuarded (k : KeyStore) : Prop :=
  match k.op with
  | .idle => True
  | .programming slot _ _ => slot.val < k.boundary
  | .erasing page _ => 4 * page.val + 3 < k.boundary
  | .protecting b _ => b < k.boundary
  | .epochUpdate _ => True

/-- No two records in use carry one tag or serve one position, and a tag is 1 to 15 (R55, R61, R62). -/
structure RecordsDistinct (s : State) : Prop where
  apart : ∀ (i j : RecNo) (a b : Record), s.sch.records[i] = some a → s.sch.records[j] = some b →
    a.tag = b.tag ∨ a.position = b.position → i = j
  tags : ∀ (i : RecNo) (a : Record), s.sch.records[i] = some a → 1 ≤ a.tag ∧ a.tag ≤ 15

/-- The entry of a table that an item replaces (R164). -/
def EditItem.entry : EditItem → Pos ⊕ ClassIdx
  | .config p _ => .inl p
  | .cls i _ => .inr i

/-- No two items share a table and an index (R164). -/
def EditsOnce (items : List EditItem) : Prop := (items.map EditItem.entry).Nodup

/-- The request queue stands in its two groups: the IDENT and NEW entries, then the DUE entries (R56). -/
def QueueGroups (q urgent due : List Request) : Prop :=
  q = urgent ++ due ∧ (∀ e ∈ urgent, e.kind ≠ .due) ∧ ∀ e ∈ due, e.kind = .due

/-- What the rules promise of positions, request queue, records, sighting entries and pending edits together. -/
structure Orderly (s : State) : Prop where
  /-- No two records share a tag or a position (R55, R61, R62). -/
  records : RecordsDistinct s
  /-- The request queue holds at most one entry a position (R55). -/
  queueOnce : (s.sch.queue.map Request.position).Nodup
  /-- The request queue stands in its two groups (R56). -/
  queueGroups : ∃ urgent due : List Request, QueueGroups s.sch.queue urgent due
  /-- A queued position is IDENTIFYING or CHALLENGING as its entry's kind asks, and has no record (R55, R57). -/
  queued : ∀ e ∈ s.sch.queue, s.run[e.position].phase = (if e.kind = .ident then .identifying else .challenging) ∧
    ∀ (i : RecNo) (r : Record), s.sch.records[i] = some r → r.position ≠ e.position
  /-- The position of an identification is IDENTIFYING (R55). -/
  identified : ∀ (i : RecNo) (r : Record), s.sch.records[i] = some r → r.query = .ident →
    s.run[r.position].phase = .identifying
  /-- The position of a challenge is CHALLENGING and has a class (R36, R55). -/
  challenged : ∀ (i : RecNo) (r : Record) (nonce : Nonce) (slot : SlotNo), s.sch.records[i] = some r →
    r.query = .challenge nonce slot → s.run[r.position].phase = .challenging ∧ s.run[r.position].classIndex ≠ none
  /-- An identity is held in CHALLENGING and HELD only (R5, R17, R20). -/
  seated : ∀ p : Pos, s.run[p].identity ≠ none → s.run[p].phase = .challenging ∨ s.run[p].phase = .held
  /-- A class index and the latch belong to an identity (R5, R18, R19). -/
  unidentified : ∀ p : Pos, s.run[p].identity = none → s.run[p].classIndex = none ∧ s.run[p].latch = false
  /-- A latched verdict is COUNTERFEIT or REVOKED (R45). -/
  latched : ∀ p : Pos, s.run[p].latch = true → s.run[p].verdict = .counterfeit ∨ s.run[p].verdict = .revoked
  /-- A REVOKED verdict is latched (R112). -/
  revoked : ∀ p : Pos, s.run[p].verdict = .revoked → s.run[p].latch = true
  /-- A position that is not enabled is DISABLED (R4, R6). -/
  disabled : ∀ p : Pos, s.configs[p].enabled = false → s.run[p].phase = .disabled
  /-- In STARTING every position is DISABLED or VACANT (R26). -/
  starting : s.device = .starting → ∀ p : Pos, s.run[p].phase = .disabled ∨ s.run[p].phase = .vacant
  /-- RUNNING is reached with the Setup lock set (R169, R196). -/
  locked : s.device = .running → s.mgt.setupLock = true
  /-- The items of the pending edit set name different entries (R164). -/
  edits : EditsOnce s.mgt.edits
  /-- No two sighting entries carry one class and serial (R91). -/
  sightedOnce : (s.sightings.map (fun e => (e.cls, e.serial))).Nodup
  /-- A holder of a sighting entry holds the identity the entry names (R95). -/
  holders : ∀ e ∈ s.sightings, ∀ p ∈ e.holders, ∃ id, s.run[p].identity = some id ∧ id.cls = e.cls ∧ id.serial = e.serial
  /-- A position with an identity is a holder (R95). -/
  sighted : ∀ (p : Pos) (id : Identity), s.run[p].identity = some id → ∃ e ∈ s.sightings, p ∈ e.holders
  /-- The sighting cache holds at most 128 entries (R91). -/
  cacheFits : s.sightings.length ≤ 128

/-! ### Telegrams -/

/-- The tests of R144 on a service telegram, byte by byte. -/
structure ServiceTests (bytes : Bytes) : Prop where
  header : 8 ≤ bytes.length
  check : checkRegister bytes = 0
  length : bytes.length = 8 + (bytes.getD 5 0).toNat
  payload : (bytes.getD 5 0).toNat ≤ 240
  origin : bytes.getD 2 0 = 0x00 ∨ bytes.getD 2 0 = 0x01
  tag : (bytes.getD 3 0).toNat ≤ 15
  node : (bytes.getD 1 0).toNat ≤ 48

/-- The service telegram a command delivers, for the commands that deliver one. -/
def serviceBytes (c : Instr) : Option Bytes :=
  match c with
  | .lineReset f => some (f.telegram 0x00 0x00 0x70)
  | .masterNodeRequest body => some (0x03 :: body)
  | .tagWrite node f => some (f.telegram node 0x00 0x03)
  | .nodeReplyForward body => some (0x03 :: body)
  | .ident node f => some (f.telegram node 0x01 0x90)
  | .answer node f => some (f.telegram node 0x01 0x91)
  | .noTag node f => some (f.telegram node 0x01 0x92)
  | .readEntries f => some (f.telegram 0x00 0x00 0x40)
  | .writeEntries f => some (f.telegram 0x00 0x00 0x41)
  | .hold f => some (f.telegram 0x00 0x00 0x42)
  | .releaseHold f => some (f.telegram 0x00 0x00 0x43)
  | .discardStaged f => some (f.telegram 0x00 0x00 0x44)
  | .noticeDrain f => some (f.telegram 0x00 0x00 0x48)
  | .attentionRead f => some (f.telegram 0x00 0x00 0x49)
  | .attentionMask f => some (f.telegram 0x00 0x00 0x4A)
  | .positionRelease f => some (f.telegram 0x00 0x00 0x50)
  | .positionRechallenge f => some (f.telegram 0x00 0x00 0x51)
  | .revokeInsert f => some (f.telegram 0x00 0x00 0x58)
  | .revokeRemove f => some (f.telegram 0x00 0x00 0x59)
  | .revokeClear f => some (f.telegram 0x00 0x00 0x5A)
  | .keyProgram f => some (f.telegram 0x00 0x00 0x60)
  | .keyErase f => some (f.telegram 0x00 0x00 0x61)
  | .keyProtect f => some (f.telegram 0x00 0x00 0x62)
  | .unknownRequest code f => some (f.telegram 0x00 0x00 code)
  | .por => none
  | .powerLoss => none
  | .resetAssert => none
  | .pinReset => none
  | .cycle _ _ => none
  | .decayStep _ => none
  | .passageToRunning => none
  | .cycleTelegramSend => none
  | .cycleReturn _ => none
  | .settlingComplete _ _ => none
  | .lossProcessing _ => none
  | .stillTimeout => none
  | .gapOpportunity => none
  | .stillTurn => none
  | .portUTransmit => none
  | .telegramWrongKind _ _ => none
  | .deadlineExpiry _ => none
  | .programCompletion _ => none
  | .eraseCompletion _ => none
  | .protectCompletion => none
  | .epochUpdateCompletion => none

/-- A request of a code reaches node 0 undamaged, on a part that takes telegrams. -/
structure Arrives (s : State) (f : Frame) (code : Byte) : Prop where
  live : s.live = true
  good : ServiceTests (f.telegram 0x00 0x00 code)

/-- The tests of R133 and R134 on a cycle telegram, its body the bytes after the kind byte. -/
structure CycleTests (framing : Framing) (body : Bytes) : Prop where
  check : checkRegister (0x01 :: body) = 0
  header : 4 ≤ body.length
  length : body.length + 1 = 5 + (body.getD 2 0).toNat * (body.getD 3 0).toNat + 2
  slots : 1 ≤ (body.getD 2 0).toNat ∧ (body.getD 2 0).toNat ≤ 64
  size : (framing ≠ .long ∧ body.getD 3 0 = 4) ∨ (framing ≠ .short ∧ body.getD 3 0 = 8)

/-- A return is good and its header equals an expectation (R137). -/
structure ReturnTests (e : Expectation) (body : Bytes) : Prop where
  check : checkRegister (0x02 :: body) = 0
  header : 4 ≤ body.length
  length : body.length + 1 = 5 + e.slotCount * e.slotSize + 2
  number : e.cycleNumber.toNat = (body.getD 0 0).toNat * 256 + (body.getD 1 0).toNat
  slots : e.slotCount = (body.getD 2 0).toNat
  size : e.slotSize = (body.getD 3 0).toNat

/-! ### Answers and frames -/

/-- `t` is `u` with one telegram more for port U, behind all that are ready before it, and nothing else changed (R149). -/
structure SendsUp (u t : State) (x : Upstream) : Prop where
  last : portU t = portU u ++ [x]
  frame : t = { u with fwd := { u.fwd with uSending := t.fwd.uSending, uReady := t.fwd.uReady } }

/-- `t` is `u` with MGT's answer on port U: node 0, origin MASTER, the request's tag, a reply code and a payload (R154). -/
def Answers (u t : State) (tag code : Byte) (payload : Bytes) : Prop :=
  SendsUp u t { bytes := serviceTelegram 0x00 0x00 tag code payload, opensGap := false }

/-- REFUSED with a cause; nothing but the answer is changed (R154). -/
def Refuses (s t : State) (tag cause : Byte) : Prop := Answers s t tag 0x82 [cause]

/-- The runtime halves of the other positions are as before. -/
def OthersKeep (p : Pos) (s t : State) : Prop := ∀ q : Pos, q ≠ p → t.run[q] = s.run[q]

/-- Only the parts that the work at positions reaches differ: runtime halves, request queue and records, sighting entries,
notices and attention flags. -/
def OnlyPositionWork (s t : State) : Prop :=
  t = { s with
    run := t.run, sightings := t.sightings, sch := { s.sch with queue := t.sch.queue, records := t.sch.records },
    mgt := { s.mgt with notices := t.mgt.notices, attention := t.mgt.attention } }

/-- The attention flags after a notice was offered to a notice queue (R171). -/
def flagsAfterNotice (waiting : Nat) (a : Attention) : Attention :=
  if waiting = 0 then { a with notice := true } else if waiting < 32 then a else { a with overrun := true }

/-- The notice queue after a notice was offered to it (R171). -/
def queueAfterNotice (l : List Notice) (n : Notice) : List Notice := if l.length < 32 then l ++ [n] else l

/-- Removal, loss and disable processing of position `p` (R14 to R16): its work is abandoned, it leaves its sighting entry,
its runtime half is cleared but for the reason, and a verdict it had is reported in a notice. -/
structure PartRemoved (p : Pos) (reason : Reason) (phase : Phase) (s t : State) : Prop where
  run : t.run[p] = { Runtime.cleared phase with reason := some reason }
  others : OthersKeep p s t
  queue : t.sch.queue = s.sch.queue.filter (fun e => e.position ≠ p)
  freed : ∀ (i : RecNo) (r : Record), s.sch.records[i] = some r → t.sch.records[i] = if r.position = p then none else some r
  free : ∀ i : RecNo, s.sch.records[i] = none → t.sch.records[i] = none
  noHolder : (∀ e ∈ s.sightings, p ∉ e.holders) → t.sightings = s.sightings
  holder : ∀ (l : List Sighting) (e : Sighting) (r : List Sighting), s.sightings = l ++ e :: r → (∀ x ∈ l, p ∉ x.holders) →
    p ∈ e.holders → t.sightings = { e with holders := e.holders.filter (fun q => q ≠ p) } :: (l ++ r)
  silent : s.run[p].verdict = .none → t.mgt.notices = s.mgt.notices ∧ t.mgt.attention = s.mgt.attention
  notice : s.run[p].verdict ≠ .none →
    t.mgt.notices = queueAfterNotice s.mgt.notices
      { position := p, before := s.run[p].verdict, after := .none, reason,
        cls := (s.run[p].identity.map Identity.cls).getD 0, serial := (s.run[p].identity.map Identity.serial).getD 0,
        score := 0, cycle := s.fwd.cycleCount.setWidth 16 } ∧
    t.mgt.attention = flagsAfterNotice s.mgt.notices.length s.mgt.attention
  frame : OnlyPositionWork s t

/-- A position has neither a queue entry nor a transaction record. -/
def Unasked (s : State) (p : Pos) : Prop :=
  (∀ e ∈ s.sch.queue, e.position ≠ p) ∧ ∀ (i : RecNo) (r : Record), s.sch.records[i] = some r → r.position ≠ p

/-- The watch condition of R3, bit by bit. -/
def WatchTrue (c : PosConfig) (stationBits : BitVec 14) : Prop :=
  ∀ i : Nat, i < 14 → c.watchMask.getLsbD i = true → stationBits.getLsbD i = decide (c.watchForm = .allSet)

/-- The decay count of a position advances at a boundary (R25). -/
def Advancing (r : Runtime) : Prop := (r.phase = .challenging ∨ r.phase = .held) ∧ r.classIndex ≠ none ∧ r.latch = false

/-- A boundary's advance brings a position to its decay step (R48). -/
def DecayIsDue (s : State) (p : Pos) (e : ClassEntry) : Prop :=
  Advancing s.run[p] ∧ classOf s s.run[p] = some e ∧ e.decayPeriod ≠ 0 ∧ e.decayPeriod ≤ min 65535 (s.run[p].decayCount + 1)

/-- `d` is `c` moved toward 0 by the smaller of `step` and |c| (R48). -/
def MovedTowardZero (step : Nat) (c d : Int) : Prop :=
  d.natAbs = c.natAbs - min step c.natAbs ∧ (0 ≤ c → 0 ≤ d) ∧ (c ≤ 0 → d ≤ 0)

/-! ### Evaluations, their requests and their notices (R44, R47, R52) -/

/-- The verdict of R44 for a class's thresholds, and the verdict kept by a latch (R45). -/
def VerdictStep (e : ClassEntry) (latch : Bool) (score : Int) (before after : Verdict) : Prop :=
  (latch = true ∨ before = .revoked → after = before) ∧
    (latch = false → before = .none ∨ before = .undecided →
      after = if e.tGen ≤ score then .genuine else if score ≤ e.tCf then .counterfeit else .undecided) ∧
    (latch = false → before = .genuine →
      after = if score ≤ e.tCf then .counterfeit else if score < e.tGen - e.hyst then .undecided else .genuine) ∧
    (latch = false → before = .counterfeit →
      after = if e.tGen ≤ score then .genuine else if e.tCf + e.hyst < score then .undecided else .counterfeit)

/-- A HELD position whose verdict has gone from `before` to `after` is called to a DUE round (R47). -/
def calledDue (r : Runtime) (after : Verdict) : Bool :=
  decide (r.phase = .held ∧ r.pendingRequest = none ∧ after ≠ r.verdict ∧ (after = .undecided ∨ r.verdict = .genuine))

/-- A runtime half after its evaluation with a reason (R44, R45, R47): unchanged where the verdict stands, else with the new
verdict and the reason; a HELD position that is called goes to CHALLENGING, with a DUE request where `unasked` says that it has
neither queue entry nor record. -/
structure Evaluated (e : ClassEntry) (reason : Reason) (unasked : Prop) (r r' : Runtime) : Prop where
  verdict : VerdictStep e r.latch r.score r.verdict r'.verdict
  kept : r'.verdict = r.verdict → r' = r
  changed : r'.verdict ≠ r.verdict → calledDue r r'.verdict = false →
    r' = { r with verdict := r'.verdict, reason := some reason }
  called : calledDue r r'.verdict = true → unasked → r' = { r with
    verdict := r'.verdict, reason := some reason, phase := .challenging, sweepAge := 0, pendingRequest := some .due,
    roundKind := .due }
  calledAsked : calledDue r r'.verdict = true → ¬ unasked → r' = { r with
    verdict := r'.verdict, reason := some reason, phase := .challenging, sweepAge := 0 }

/-- The DUE requests of the evaluations at positions, taken in an order (R47, R57): one for each position called that had
neither queue entry nor record. -/
def DueCalls (order : List Pos) (s t : State) (due : List Request) : Prop :=
  ∀ test : Pos → Bool, (∀ p, test p = true ↔ calledDue s.run[p] t.run[p].verdict = true ∧ Unasked s p) →
    due = (order.filter test).map (fun p => { position := p, kind := .due })

/-- The positions that pass a test, in ascending order. -/
def ascending (test : Pos → Bool) : List Pos := (List.finRange 48).filter test

/-- The notice queue and the attention flags after notices have been offered one after another (R171). -/
def offered (l : List Notice) (s : State) : List Notice × Attention :=
  l.foldl (fun x n => (queueAfterNotice x.1 n, flagsAfterNotice x.1.length x.2)) (s.mgt.notices, s.mgt.attention)

/-- The notice of a verdict change at a position that keeps identity and score (R52). -/
def noticeOf (s : State) (p : Pos) (after : Verdict) (reason : Reason) : Notice :=
  { position := p, before := s.run[p].verdict, after, reason,
    cls := (s.run[p].identity.map Identity.cls).getD 0, serial := (s.run[p].identity.map Identity.serial).getD 0,
    score := s.run[p].score, cycle := s.fwd.cycleCount.setWidth 16 }

/-- The notices of the verdict changes of one reason, in an order of positions; each carries the score the event leaves. -/
def changeNotices (reason : Reason) (order : List Pos) (s t : State) : List Notice :=
  (order.filter (fun p => t.run[p].verdict != s.run[p].verdict)).map
    (fun p => { noticeOf s p t.run[p].verdict reason with score := t.run[p].score })

/-! ### Inputs of a return (R7, R10, R14, R15) -/

/-- A part has left a position between two states of a return: it was settling or seated, and the position is VACANT or LOST. -/
def partLeft (s t : State) (p : Pos) : Bool :=
  decide ((s.run[p].phase = .settling ∨ s.run[p].phase = .identifying ∨ s.run[p].phase = .challenging ∨ s.run[p].phase = .held) ∧
    (t.run[p].phase = .vacant ∨ t.run[p].phase = .lost))

/-- Settling was completed at a position between two states of a return: it has become IDENTIFYING. -/
def partSettled (s t : State) (p : Pos) : Bool :=
  decide (s.run[p].phase ≠ .identifying ∧ t.run[p].phase = .identifying)

/-- POS takes the inputs of a return: every position once, in one order, which is free (LOG 8). A position whose settling is
complete queues its IDENT request in that order; a part that leaves has its queue entry, record and place in a holders list taken
away, and a verdict it had is reported in that order. -/
structure InputsTaken (body : Bytes) (s t : State) : Prop where
  order : ∃ order : List Pos, order.Nodup ∧ (∀ p, p ∈ order) ∧
    t = { order.foldl (fun u p => handleInput p (inputOf body p) u) s with freeIndex := t.freeIndex } ∧
    (∀ urgent due : List Request, QueueGroups s.sch.queue urgent due → (∀ p, partSettled s t p = true → Unasked s p) →
      t.sch.queue = urgent.filter (fun e => !partLeft s t e.position) ++
        (order.filter (partSettled s t)).map (fun p => { position := p, kind := .ident }) ++
        due.filter (fun e => !partLeft s t e.position)) ∧
    (t.mgt.notices, t.mgt.attention) = offered ((order.filter (fun p => partLeft s t p && s.run[p].verdict != .none)).map
      (fun p => { noticeOf s p .none (if t.run[p].phase = .lost then .lost else .removed) with score := 0 })) s
  freed : ∀ (i : RecNo) (r : Record), s.sch.records[i] = some r →
    t.sch.records[i] = if partLeft s t r.position = true then none else some r
  free : ∀ i : RecNo, s.sch.records[i] = none → t.sch.records[i] = none
  sightings : (∀ p, partLeft s t p = true → (s.sightings.filter (fun e => decide (p ∈ e.holders))).length ≤ 1) →
    t.sightings.Perm (s.sightings.map (fun e => { e with holders := e.holders.filter (fun q => !partLeft s t q) }))

/-! ### Cycle boundaries -/

/-- FWD at the boundary of a good cycle telegram of a slot size: the framing locked, the cycle counted, the line CYCLING, the
gap closed, and no return expected (R133, R135). -/
def atBoundary (slotSize : Byte) (s : State) : State :=
  { s with fwd := { s.fwd with
    framing := if slotSize = 4 then .short else .long, cycleCount := s.fwd.cycleCount + 1, lineState := .cycling,
    stillTimer := some 0, gap := none, expectation := none } }

/-- The cycle-counted fields of every position advance (R25, R48), with the decay steps, their DUE requests and their notices
in one order of the positions, which is free (LOG 8). The sweep age of a latched position holds (LOG 24); with a decay_period of
1 the step is taken after evidence at the same boundary too (LOG 25). -/
structure BoundaryAdvance (s t : State) : Prop where
  undue : ∀ p : Pos, (∀ e, ¬ DecayIsDue s p e) → ∀ r : Runtime, r = s.run[p] → ∃ swept counted : Nat,
    (r.phase = .held ∧ r.latch = false → swept = min 65535 (r.sweepAge + 1)) ∧
    (¬ (r.phase = .held ∧ r.latch = false) → swept = r.sweepAge) ∧
    ((∃ e, Advancing r ∧ classOf s r = some e) → counted = min 65535 (r.decayCount + 1)) ∧
    (¬ Advancing r → counted = r.decayCount) ∧ t.run[p] = { r with sweepAge := swept, decayCount := counted }
  due : ∀ (p : Pos) (e : ClassEntry), DecayIsDue s p e → ∃ score : Int, MovedTowardZero e.decayStep s.run[p].score score ∧
    Evaluated e .decay (Unasked s p) { s.run[p] with
      score, decayCount := 0,
      sweepAge := if s.run[p].phase = .held then min 65535 (s.run[p].sweepAge + 1) else s.run[p].sweepAge } t.run[p]
  order : ∃ (order : List Pos) (due : List Request), order.Nodup ∧ (∀ p, p ∈ order) ∧ DueCalls order s t due ∧
    t.sch.queue = s.sch.queue ++ due ∧ (t.mgt.notices, t.mgt.attention) = offered (changeNotices .decay order s t) s
  frame : t = { s with
    freeIndex := t.freeIndex, run := t.run, sch := { s.sch with queue := t.sch.queue },
    mgt := { s.mgt with notices := t.mgt.notices, attention := t.mgt.attention } }

/-- The telegram sent for a cycle telegram: each slot of a position within position_count is rewritten by that position's
action under its ceiling, the other slots and the header are as received, and an unchanged telegram keeps its check sequence
(R120, R124, R125). -/
structure GatedSlotBySlot (s : State) (body sent : Bytes) : Prop where
  length : sent.length = body.length + 1
  header : sent.take 5 = 0x01 :: body.take 4
  gated : ∀ (p : Pos) (size ceiling : Nat), size = (body.getD 3 0).toNat → p.val < (body.getD 2 0).toNat →
    p.val + 1 ≤ s.mgt.setup.positionCount → (∀ e, classOf s s.run[p] = some e → ceiling = e.clampValue) →
    (s.run[p].classIndex = none → ceiling = s.mgt.setup.unknownClamp) →
    (sent.drop (5 + p.val * size)).take size =
      rewriteSlot s.fwd.framing s.configs[p] (gateAction s p) ceiling ((body.drop (4 + p.val * size)).take size)
  untouched : ∀ k size : Nat, size = (body.getD 3 0).toNat → k < (body.getD 2 0).toNat →
    48 ≤ k ∨ s.mgt.setup.positionCount < k + 1 →
    (sent.drop (5 + k * size)).take size = (body.drop (4 + k * size)).take size
  unchanged : sent.take (body.length - 1) = 0x01 :: body.take (body.length - 2) → sent = 0x01 :: body

/-! ### Key store -/

/-- The operation in flight writes or erases a slot. -/
def KeyStore.reaches (k : KeyStore) (slot : SlotNo) : Bool :=
  match k.op with
  | .idle => false
  | .programming x _ _ => x == slot
  | .erasing page _ => page.val == slot.val / 4
  | .protecting _ _ => false
  | .epochUpdate _ => false

/-- An epoch update is running. -/
def KeyStore.updating (k : KeyStore) : Bool :=
  match k.op with
  | .idle => false
  | .programming _ _ _ => false
  | .erasing _ _ => false
  | .protecting _ _ => false
  | .epochUpdate _ => true

/-! ### Scheduler and verifier replies -/

/-- The record at a place is RESEND-WAITING with an order number (R61, R64). -/
def Resending (s : State) (i : RecNo) (order : Nat) : Prop :=
  ∃ r : Record, s.sch.records[i] = some r ∧ r.state = .resendWaiting order

/-- The record at a place is AWAITING-KEY with an order number (R61, R79). -/
def AwaitingKey (s : State) (i : RecNo) (order : Nat) : Prop :=
  ∃ (r : Record) (odo response : Word32), s.sch.records[i] = some r ∧ r.state = .awaitingKey odo response order

/-- The epoch is ready: no update is running or pending (R63, R186). -/
def EpochReady (s : State) : Prop := s.kst.epochPending = false ∧ s.kst.updating = false

/-- The position waits for the next challenge of its round (R59). -/
def Continues (s : State) (p : Pos) : Prop :=
  s.run[p].phase = .challenging ∧ s.run[p].remaining ≠ 0 ∧ s.run[p].classIndex ≠ none ∧ Unasked s p

/-- A queue entry may be issued (R64). -/
def MayIssue (s : State) (e : Request) : Prop :=
  (∀ (i : RecNo) (r : Record), s.sch.records[i] = some r → r.position ≠ e.position) ∧
    (e.kind = .ident ∨ (EpochReady s ∧ s.run[e.position].classIndex ≠ none))

/-- The sweep may pick a position (R66, R67). -/
structure MaySweep (s : State) (p : Pos) : Prop where
  held : s.run[p].phase = .held
  unlatched : s.run[p].latch = false
  eligible : (s.run[p].identity ≠ none ∧
      ∃ e, classOf s s.run[p] = some e ∧ e.sweepPeriod ≠ 0 ∧ e.sweepPeriod ≤ s.run[p].sweepAge) ∨
    (s.run[p].verdict = .undecided ∧ s.mgt.setup.undecidedRetry ≤ s.run[p].sweepAge ∧
      (s.run[p].identity = none ∨ s.run[p].classIndex ≠ none))
  noRecord : ∀ (i : RecNo) (r : Record), s.sch.records[i] = some r → r.position ≠ p
  epoch : s.run[p].identity = none ∨ EpochReady s

/-- The sweep examines `q` before `p` from its cursor on (R66). -/
def SweptBefore (cursor q p : Pos) : Prop := (q.val + 48 - cursor.val) % 48 < (p.val + 48 - cursor.val) % 48

/-- `tag` is the first free candidate from the tag counter on, with 15 followed by 1 (R62). -/
def FirstFreeTag (s : State) (tag : Nat) : Prop :=
  ∃ k : Nat, k < 15 ∧ tag = (s.sch.tagCounter + k) % 15 + 1 ∧
    (∀ (i : RecNo) (r : Record), s.sch.records[i] = some r → r.tag ≠ tag) ∧
    ∀ j : Nat, j < k → ∃ (i : RecNo) (r : Record), s.sch.records[i] = some r ∧ r.tag = (s.sch.tagCounter + j) % 15 + 1

/-- The record of a transaction at its issue: attempt 1, its deadline answer_timeout ticks ahead (R61, R68). -/
def firstSending (s : State) (p : Pos) (q : Query) (tag : Nat) : Record :=
  { tag, position := p, query := q, attempt := 1, deadline := s.now + s.mgt.setup.answerTimeout, state := .issued }

/-- A transaction is issued: a free record place is filled, the tag counter follows, and the query is sent on port D
(R61, R62, R68, R150). -/
def QuerySent (p : Pos) (q : Query) (code : Byte) (payload : Bytes) (s t : State) : Prop :=
  ∃ (i : RecNo) (tag : Nat), s.sch.records[i] = none ∧ FirstFreeTag s tag ∧
    t.sch.records = s.sch.records.set i.val (some (firstSending s p q tag)) i.isLt ∧
    t.sch.tagCounter = tag ∧
    t.fwd = { s.fwd with
      dSending := some (serviceTelegram (BitVec.ofNat 8 (p.val + 1)) 0x01 (BitVec.ofNat 8 tag) code payload) }

/-- The key store after a request of an epoch update (R186). -/
def EpochAsked (now : Nat) (k k' : KeyStore) : Prop :=
  (k.epoch = BitVec.allOnes 32 → k' = k) ∧
    (k.epoch ≠ BitVec.allOnes 32 → k.op = .idle → k' = { k with op := .epochUpdate (now + 4) }) ∧
    (k.epoch ≠ BitVec.allOnes 32 → k.op ≠ .idle → k' = { k with epochPending := true })

/-- A nonce has been taken: the counter steps, and its wrap asks for an epoch update (R63, R88, R89). -/
def NonceTaken (s t : State) : Prop :=
  (s.sch.nonceCounter ≠ BitVec.allOnes 32 → t.sch.nonceCounter = s.sch.nonceCounter + 1 ∧ t.kst = s.kst) ∧
    (s.sch.nonceCounter = BitVec.allOnes 32 → t.sch.nonceCounter = 0 ∧ EpochAsked s.now s.kst t.kst)

/-- A verifier reply of a code reaches SCH undamaged with the tag and the node of the record at a place (R69, R144, R148). -/
structure ReplyFor (s : State) (node : Byte) (f : Frame) (code : Byte) (i : RecNo) (rec : Record) : Prop where
  live : s.live = true
  good : ServiceTests (f.telegram node 0x01 code)
  held : s.sch.records[i] = some rec
  tag : f.tag.toNat = rec.tag
  node : node.toNat = rec.position.val + 1

/-- The record still waits for its reply: ISSUED or RESEND-WAITING (R70, R71). -/
def Record.waits (r : Record) : Prop := r.state = .issued ∨ ∃ n, r.state = .resendWaiting n

/-- The payload of an IDENT: serial, class, lot (08, Node payloads used by the ZL48). -/
def identPayload (id : Identity) : Bytes := be 6 id.serial.toNat ++ be 2 id.cls.toNat ++ be 3 id.lot.toNat

/-- The payload of an ANSWER: nonce echo, odometer, response word (08, Node payloads used by the ZL48). -/
def answerPayload (nonce : Nonce) (odo response : Word32) : Bytes := be 8 nonce.toNat ++ be 4 odo.toNat ++ be 4 response.toNat

/-- An entry matches an identity under R106. -/
def Revokes (e : Revocation) (id : Identity) : Prop :=
  e.cls = id.cls ∧ e.lot = id.lot ∧ (e.scope = .wholeLot ∨ e.scope = .serial id.serial)

/-- The cache after the sighting step of a position that is the only holder of the identity (R92 to R94). -/
structure Sighted (p : Pos) (id : Identity) (l l' : List Sighting) : Prop where
  found : ∀ (a : List Sighting) (e : Sighting) (b : List Sighting), l = a ++ e :: b → e.cls = id.cls → e.serial = id.serial →
    (∀ x ∈ a, x.cls ≠ id.cls ∨ x.serial ≠ id.serial) → (∀ q ∈ e.holders, q = p) →
    l' = { e with holders := if e.holders = [] then [p] else e.holders } :: (a ++ b)
  made : (∀ x ∈ l, x.cls ≠ id.cls ∨ x.serial ≠ id.serial) → l.length < 128 →
    l' = { cls := id.cls, serial := id.serial, lastOdo := none, holders := [p] } :: l
  evicted : ∀ (a : List Sighting) (e : Sighting) (b : List Sighting), l = a ++ e :: b →
    (∀ x ∈ l, x.cls ≠ id.cls ∨ x.serial ≠ id.serial) → 128 ≤ l.length → e.holders = [] → (∀ x ∈ b, x.holders ≠ []) →
    l' = { cls := id.cls, serial := id.serial, lastOdo := none, holders := [p] } :: (a ++ b)

/-- The notice queue and the attention flags after the verdict of a position went from `before` to `after` (R47, R52,
R171): a notice exactly where it changed. -/
def VerdictReported (s t : State) (p : Pos) (before after : Verdict) (reason : Reason) (id : Option Identity) (score : Int) :
    Prop :=
  (before = after → t.mgt.notices = s.mgt.notices ∧ t.mgt.attention = s.mgt.attention) ∧
    (before ≠ after →
      t.mgt.notices = queueAfterNotice s.mgt.notices
        { position := p, before, after, reason, cls := (id.map Identity.cls).getD 0,
          serial := (id.map Identity.serial).getD 0, score, cycle := s.fwd.cycleCount.setWidth 16 } ∧
      t.mgt.attention = flagsAfterNotice s.mgt.notices.length s.mgt.attention)

/-- A score after one addition of a weight (R29). -/
def clampedScore (c w : Int) : Int := max (-1000) (min 1000 (c + w))

/-- The premises of an ANSWER that is verified at once (R71, R86): the record waits, KST is not busy, the captured slot holds
a key, the position is CHALLENGING with an identity and a class. -/
structure Verifies (s : State) (node : Byte) (f : Frame) (i : RecNo) (rec : Record) (nonce : Nonce) (slot : SlotNo) (key : Key)
    (id : Identity) (e : ClassEntry) : Prop where
  reply : ReplyFor s node f 0x91 i rec
  apart : RecordsDistinct s
  query : rec.query = .challenge nonce slot
  waits : rec.waits
  notBusy : s.kst.busy = false
  key : s.kst.slots[slot] = .programmed key
  phase : s.run[rec.position].phase = .challenging
  identity : s.run[rec.position].identity = some id
  cls : classOf s s.run[rec.position] = some e

/-- An answer is handled: the record is freed, the verdict follows the new score, a change is reported, and the round ends
where no challenge is left to come (R37, R44, R47, R72). `r` is the runtime half with the odometer's part of the outcome. -/
structure AnswerHandled (s t : State) (i : RecNo) (p : Pos) (e : ClassEntry) (score : Int) (reason : Reason) (r : Runtime) :
    Prop where
  verdict : VerdictStep e s.run[p].latch score s.run[p].verdict t.run[p].verdict
  run : t.run[p] = { r with
    score, decayCount := 0, keyMissing := false, verdict := t.run[p].verdict,
    reason := if t.run[p].verdict = s.run[p].verdict then s.run[p].reason else some reason,
    phase := if s.run[p].remaining = 0 then .held else .challenging }
  others : OthersKeep p s t
  report : VerdictReported s t p s.run[p].verdict t.run[p].verdict reason s.run[p].identity score
  sch : t.sch = { s.sch with records := s.sch.records.set i.val none i.isLt }
  frame : OnlyPositionWork s t

/-- An answer forces COUNTERFEIT: the verdict is latched and the round ends (R32, R33, R46, R60). -/
structure CounterfeitForced (s t : State) (i : RecNo) (p : Pos) (score : Int) (reason : Reason) : Prop where
  run : t.run[p] = { s.run[p] with
    score, decayCount := 0, keyMissing := false, verdict := .counterfeit, latch := true, reason := some reason,
    remaining := 0, phase := .held }
  others : OthersKeep p s t
  report : VerdictReported s t p s.run[p].verdict .counterfeit reason s.run[p].identity score
  sch : t.sch = { s.sch with records := s.sch.records.set i.val none i.isLt }
  sightings : t.sightings = s.sightings
  frame : OnlyPositionWork s t

/-- The cache after an authenticated odometer of position `p` is recorded (R41, R99): its entry is touched and keeps the
larger odometer. -/
structure OdometerRecorded (p : Pos) (odo : Word32) (l l' : List Sighting) : Prop where
  none : (∀ e ∈ l, p ∉ e.holders) → l' = l
  some : ∀ (a : List Sighting) (e : Sighting) (b : List Sighting), l = a ++ e :: b → (∀ x ∈ a, p ∉ x.holders) →
    p ∈ e.holders →
    l' = { e with lastOdo := .some (e.lastOdo.elim odo (fun old => if odo < old then old else odo)) } :: (a ++ b)

/-- An expiry of the record at a place (R73, R74): RESEND-WAITING behind those that wait, or after three attempts the
failure of the transaction: the NO-TAG outcome of an identification (R20), NO-ANSWER for a challenge (R34, R60). -/
structure Expired (s t : State) (i : RecNo) (rec : Record) : Prop where
  again : rec.attempt < 3 → ∃ n : Nat, (∀ j m, Resending s j m → m < n) ∧
    t = { s with sch := { s.sch with
      records := s.sch.records.set i.val (some { rec with state := .resendWaiting n }) i.isLt } }
  noTag : 3 ≤ rec.attempt → rec.query = .ident →
    t.run[rec.position] = { s.run[rec.position] with
      identity := none, classIndex := none, verdict := .undecided, reason := some .noTag, phase := .held } ∧
    VerdictReported s t rec.position s.run[rec.position].verdict .undecided .noTag none s.run[rec.position].score ∧
    OthersKeep rec.position s t ∧ t.sch = { s.sch with records := s.sch.records.set i.val none i.isLt } ∧
    t.sightings = s.sightings ∧ OnlyPositionWork s t
  noAnswer : ∀ (nonce : Nonce) (slot : SlotNo) (e : ClassEntry), 3 ≤ rec.attempt → rec.query = .challenge nonce slot →
    s.run[rec.position].phase = .challenging → classOf s s.run[rec.position] = some e →
    let score := clampedScore s.run[rec.position].score e.wNoAnswer
    VerdictStep e s.run[rec.position].latch score s.run[rec.position].verdict t.run[rec.position].verdict ∧
    t.run[rec.position] = { s.run[rec.position] with
      score, decayCount := 0, verdict := t.run[rec.position].verdict, remaining := 0, phase := .held,
      reason := if t.run[rec.position].verdict = s.run[rec.position].verdict then s.run[rec.position].reason
        else some .noAnswer } ∧
    VerdictReported s t rec.position s.run[rec.position].verdict t.run[rec.position].verdict .noAnswer
      s.run[rec.position].identity score ∧
    OthersKeep rec.position s t ∧ t.sch = { s.sch with records := s.sch.records.set i.val none i.isLt } ∧
    t.sightings = s.sightings ∧ OnlyPositionWork s t

/-- An IDENT reply is taken for a waiting identification of a part that no other position holds, and the position has no
queue entry (R69, R70). -/
structure Identifies (s : State) (node : Byte) (f : Frame) (i : RecNo) (rec : Record) (id : Identity) : Prop where
  reply : ReplyFor s node f 0x90 i rec
  apart : RecordsDistinct s
  query : rec.query = .ident
  waits : rec.waits
  payload : f.payload = identPayload id
  alone : ∀ e ∈ s.sightings, e.cls = id.cls → e.serial = id.serial → ∀ q ∈ e.holders, q = rec.position
  noEntry : ∀ e ∈ s.sch.queue, e.position ≠ rec.position

/-- An IDENT reply is taken for a waiting identification of a part that other positions hold: a duplicate finding at the entry
`x` (R93, R96). -/
structure FindsHolders (s : State) (node : Byte) (f : Frame) (i : RecNo) (rec : Record) (id : Identity) (a : List Sighting)
    (x : Sighting) (b : List Sighting) : Prop where
  reply : ReplyFor s node f 0x90 i rec
  apart : RecordsDistinct s
  query : rec.query = .ident
  waits : rec.waits
  payload : f.payload = identPayload id
  split : s.sightings = a ++ x :: b
  cls : x.cls = id.cls
  serial : x.serial = id.serial
  first : ∀ y ∈ a, y.cls ≠ id.cls ∨ y.serial ≠ id.serial
  once : x.holders.Nodup
  others : ∃ q ∈ x.holders, q ≠ rec.position

/-- The earlier holders of an entry that a position joins, in the order of its holders list. -/
def earlierOf (x : Sighting) (p : Pos) : List Pos := x.holders.filter (fun q => decide (q ≠ p))

/-- The sighting step of a duplicate finding by position `p` (R35, R93, R96): each earlier holder with a class takes its own
class's w_dup and is evaluated with reason DUPLICATE; the entry is touched, and the joiner is put into its holders list, which
stays ascending. -/
structure HoldersCharged (p : Pos) (a : List Sighting) (x : Sighting) (b : List Sighting) (s t : State) : Prop where
  charged : ∀ q ∈ x.holders, q ≠ p → ∀ e, classOf s s.run[q] = some e → Evaluated e .duplicate (Unasked s q)
    { s.run[q] with score := clampedScore s.run[q].score e.wDup, decayCount := 0 } t.run[q]
  classless : ∀ q ∈ x.holders, q ≠ p → classOf s s.run[q] = none → t.run[q] = s.run[q]
  others : ∀ q : Pos, q ≠ p → q ∉ x.holders → t.run[q] = s.run[q]
  entry : ∃ holders, t.sightings = { x with holders } :: (a ++ b) ∧ (∀ q, q ∈ holders ↔ q ∈ x.holders ∨ q = p) ∧
    (x.holders.Pairwise (· < ·) → holders.Pairwise (· < ·))

/-- The notices of a duplicate finding: those of the earlier holders in their order, then the joiner's where it has one
(R52, R96). -/
def FindingNotices (x : Sighting) (p : Pos) (s t : State) (joiner : List Notice) : Prop :=
  (t.mgt.notices, t.mgt.attention) = offered (changeNotices .duplicate (earlierOf x p) s t ++ joiner) s

/-- The notice of the joiner of an identification, with the identity and the score the event leaves (R52). -/
def joinerNotice (s t : State) (p : Pos) (id : Identity) (reason : Reason) : Notice :=
  { noticeOf s p t.run[p].verdict reason with cls := id.cls, serial := id.serial, score := t.run[p].score }

/-- The class is found at an index of the Class Table; code 0 is never found (R19). -/
def ClassAt (s : State) (code : Code) (i : ClassIdx) : Prop :=
  code ≠ 0 ∧ s.mgt.classes[i].code = code ∧ ∀ j : ClassIdx, j.val < i.val → s.mgt.classes[j].code ≠ code

/-! ### Requests -/

/-- A request of a code reaches node 0 undamaged, with its transaction tag and payload. -/
structure Asks (s : State) (f : Frame) (code : Byte) (payload : Bytes) : Prop extends Arrives s f code where
  payload : f.payload = payload

/-- A POSITION-CONFIG entry passes R161 for a slot size. -/
structure ConfigFits (size : Nat) (c : PosConfig) : Prop where
  settle : 1 ≤ c.settleCycles ∧ c.settleCycles ≤ 255
  gate : 1 ≤ c.gateLength ∧ c.gateLength ≤ 4 ∧ c.gateOffset + c.gateLength ≤ size
  clamp : ∀ o, c.clampOffset = some o → o + 2 ≤ size

/-- The slot size POSITION-CONFIG entries are tested against (R161). -/
def SlotSizeOf (f : Framing) : Nat := if f = .short then 4 else 8

/-- A CLASS entry that names a class passes R159. -/
structure ClassFits (e : ClassEntry) : Prop where
  named : e.code ≠ 0
  round : e.repeatCount ≤ 3 ∧ e.sweepPeriod ≤ 65535 ∧ 1 ≤ e.strokeCap ∧ e.strokeCap ≤ 255 ∧ e.clampValue ≤ 65535
  gains : 0 ≤ e.wPass ∧ e.wPass ≤ 1000 ∧ 0 ≤ e.wOdoOk ∧ e.wOdoOk ≤ 1000
  losses : ∀ w ∈ [e.wFail, e.wNoAnswer, e.wDup, e.wAhead], -1000 ≤ w ∧ w ≤ 0
  odometer : e.lagRate ≤ 100 ∧ e.slack ≤ 255 ∧ e.lagCap ≤ 1000 ∧ e.odoTol ≤ 65535 ∧ e.lifeLimit < 2 ^ 32
  decay : e.decayStep ≤ 100 ∧ e.decayPeriod ≤ 65535
  thresholds : 1 ≤ e.tGen ∧ e.tGen ≤ 1000 ∧ -1000 ≤ e.tCf ∧ e.tCf ≤ -1 ∧ e.hyst ≤ 500 ∧ 2 * (e.hyst : Int) < e.tGen - e.tCf

/-- The ranges of the Setup record (R168). -/
structure SetupFits (p : Setup) : Prop where
  positions : 1 ≤ p.positionCount ∧ p.positionCount ≤ 48
  gap : 2 ≤ p.gapSlots ∧ p.gapSlots ≤ 16 ∧ 1 ≤ p.verifierSlots ∧ p.verifierSlots < p.gapSlots
  times : 2 ≤ p.answerTimeout ∧ p.answerTimeout ≤ 250 ∧ 5 ≤ p.stillTimeout ∧ p.stillTimeout ≤ 1000
  counts : 1 ≤ p.lostCycles ∧ p.lostCycles ≤ 255 ∧ 1 ≤ p.undecidedRetry ∧ p.undecidedRetry ≤ 65535
  unknown : p.unknownClamp ≤ 65535 ∧ 1 ≤ p.defaultStrokeCap ∧ p.defaultStrokeCap ≤ 255

/-- The value of the byte at an offset of an entry. -/
def byteAt (b : Bytes) (k : Nat) : Nat := (b.getD k 0).toNat

/-- The value of the two bytes at an offset, unsigned. -/
def wordAt (b : Bytes) (k : Nat) : Nat := byteAt b k * 256 + byteAt b (k + 1)

/-- The value of the two bytes at an offset in two's complement. -/
def signedAt (b : Bytes) (k : Nat) : Int := if wordAt b k < 32768 then wordAt b k else (wordAt b k : Int) - 65536

/-- The tests of R161, each as it refuses the 8 bytes of a POSITION-CONFIG entry for a slot size. -/
def UnfitConfig (size : Nat) (b : Bytes) : Prop :=
  1 < byteAt b 0 ∨ 1 < byteAt b 2 ∨ byteAt b 1 = 0 ∨
    (b.getD 4 0).getLsbD 7 = true ∨ (b.getD 4 0).getLsbD 6 = true ∨
    byteAt b 6 = 0 ∨ 4 < byteAt b 6 ∨ size < byteAt b 3 + byteAt b 6 ∨
    (∃ k ∈ [3, 4, 5, 6], (b.getD 7 0).getLsbD k = true) ∨
    ((b.getD 7 0).getLsbD 7 = false ∧ b.getD 7 0 ≠ 0) ∨
    ((b.getD 7 0).getLsbD 7 = true ∧ size < byteAt b 7 % 8 + 2)

/-- The tests of R159 with the ranges of R30, each as it refuses the 48 bytes of a CLASS entry. -/
def UnfitClass (b : Bytes) : Prop :=
  (wordAt b 0 = 0 ∧ ∃ k < 48, 2 ≤ k ∧ byteAt b k ≠ 0) ∨
    (wordAt b 0 ≠ 0 ∧
      (15 < byteAt b 2 ∨ 3 < byteAt b 3 ∨ byteAt b 6 = 0 ∨ 2 < byteAt b 7 ∨ 2 < byteAt b 8 ∨ 2 < byteAt b 9 ∨
        (∃ k ∈ [12, 14], signedAt b k < 0 ∨ 1000 < signedAt b k) ∨
        (∃ k ∈ [16, 18, 20, 22], signedAt b k < -1000 ∨ 0 < signedAt b k) ∨
        100 < byteAt b 24 ∨ 1000 < wordAt b 26 ∨ 1 < byteAt b 34 ∨ 100 < byteAt b 35 ∨
        signedAt b 36 < 1 ∨ 1000 < signedAt b 36 ∨ signedAt b 38 < -1000 ∨ -1 < signedAt b 38 ∨ 500 < wordAt b 40 ∨
        signedAt b 36 - signedAt b 38 ≤ 2 * (wordAt b 40 : Int) ∨ (∃ k ∈ [44, 45, 46, 47], byteAt b k ≠ 0)))

/-- The tests of R169 with the ranges of R168, each as it refuses the 16 bytes of a SETUP entry. -/
def UnfitSetup (b : Bytes) : Prop :=
  byteAt b 0 = 0 ∨ 48 < byteAt b 0 ∨ byteAt b 1 < 2 ∨ 16 < byteAt b 1 ∨ byteAt b 2 = 0 ∨ byteAt b 1 ≤ byteAt b 2 ∨
    byteAt b 3 < 2 ∨ 250 < byteAt b 3 ∨ wordAt b 4 < 5 ∨ 1000 < wordAt b 4 ∨ byteAt b 6 = 0 ∨ 2 < byteAt b 7 ∨
    wordAt b 8 = 0 ∨ byteAt b 12 = 0 ∨ byteAt b 13 ≠ 0 ∨ byteAt b 14 ≠ 0 ∨ byteAt b 15 ≠ 0

/-! ### The layouts of the table entries (08, Layouts and code values; R153) -/

/-- The bytes hold fields, each given by its offset, its width in bytes and its value, the most significant byte first. -/
def Shows (b : Bytes) (fields : List (Nat × Nat × Nat)) : Prop :=
  ∀ x ∈ fields, beNat ((b.drop x.1).take x.2.1) = x.2.2

/-- A value in 16-bit two's complement. -/
def twosComplement (v : Int) : Nat := (v % 65536).toNat

/-- The code of a verdict (08, Layouts and code values). -/
def verdictNumber (v : Verdict) : Nat := [Verdict.none, .undecided, .genuine, .counterfeit, .revoked].idxOf v

/-- The code of a reason (08, Layouts and code values). -/
def reasonNumber (x : Reason) : Nat :=
  1 + [Reason.pass, .odoOk, .fail, .noAnswer, .rollback, .lag, .ahead, .duplicate, .revoked, .decay, .removed, .lost, .disabled,
    .classUnknown, .noTag, .tableChange].idxOf x

/-- The numeric fields of a runtime half lie in the ranges of R5 and R28. -/
structure RuntimeFits (r : Runtime) : Prop where
  score : -1000 ≤ r.score ∧ r.score ≤ 1000
  strokes : r.strokes < 2 ^ 32
  reference : ∀ o, r.odoRef = some o → o.strokes < 2 ^ 32
  counts : r.decayCount ≤ 65535 ∧ r.remaining ≤ 3

/-- A POSITION-STATE entry shows a runtime half. -/
def ShowsRuntime (b : Bytes) (r : Runtime) : Prop :=
  Shows b [
    (0, 1, 16 * [Phase.disabled, .vacant, .settling, .identifying, .challenging, .held, .lost].idxOf r.phase +
      verdictNumber r.verdict),
    (1, 1, (r.reason.map reasonNumber).getD 0),
    (2, 1, 128 * r.latch.toNat + 64 * r.worn.toNat + 32 * r.released.toNat + 16 * r.keyMissing.toNat +
      8 * r.strokeJump.toNat + 4 * r.identity.isSome.toNat + 2 * r.classIndex.isSome.toNat + r.odoRef.isSome.toNat),
    (3, 1, 64 * [RoundKind.new, .due, .sweep, .manual].idxOf r.roundKind + 8 * r.remaining +
      2 * [none, some RequestKind.ident, some .new, some .due].idxOf r.pendingRequest + r.lastOdo.isSome.toNat),
    (4, 2, twosComplement r.score),
    (6, 6, (r.identity.map (fun i => i.serial.toNat)).getD 0),
    (12, 2, (r.identity.map (fun i => i.cls.toNat)).getD 0),
    (14, 4, r.strokes),
    (18, 4, (r.odoRef.map (fun o => o.odo.toNat)).getD 0),
    (22, 4, (r.odoRef.map (fun o => o.strokes)).getD 0),
    (26, 4, (r.lastOdo.map (fun o => o.toNat)).getD 0),
    (30, 2, r.decayCount)]

/-- A POSITION-CONFIG entry shows a configuration half. -/
def ShowsConfig (b : Bytes) (c : PosConfig) : Prop :=
  Shows b [(0, 1, c.enabled.toNat), (1, 1, c.settleCycles), (2, 1, [WatchForm.allSet, .allClear].idxOf c.watchForm),
    (3, 1, c.gateOffset), (4, 2, c.watchMask.toNat), (6, 1, c.gateLength),
    (7, 1, (c.clampOffset.map (fun o => 128 + o)).getD 0)]

/-- The code of a policy field (08, Management entries). -/
def policyNumber (a : GateAction) : Nat := [GateAction.pass, .clamp, .block].idxOf a

/-- A CLASS entry shows a Class Table entry. -/
def ShowsClass (b : Bytes) (e : ClassEntry) : Prop :=
  Shows b [(0, 2, e.code.toNat), (2, 1, e.keySlot.val), (3, 1, e.repeatCount), (4, 2, e.sweepPeriod), (6, 1, e.strokeCap),
    (7, 1, policyNumber e.policyCf), (8, 1, policyNumber e.policyPending), (9, 1, policyNumber e.policyWorn),
    (10, 2, e.clampValue), (12, 2, twosComplement e.wPass), (14, 2, twosComplement e.wOdoOk),
    (16, 2, twosComplement e.wFail), (18, 2, twosComplement e.wNoAnswer), (20, 2, twosComplement e.wDup),
    (22, 2, twosComplement e.wAhead), (24, 1, e.lagRate), (25, 1, e.slack), (26, 2, e.lagCap), (28, 2, e.odoTol),
    (30, 4, e.lifeLimit), (34, 1, e.failLatch.toNat), (35, 1, e.decayStep), (36, 2, twosComplement e.tGen),
    (38, 2, twosComplement e.tCf), (40, 2, e.hyst), (42, 2, e.decayPeriod), (44, 4, 0)]

/-- The 16 bytes of a notice (08, Layouts and code values). -/
def ShowsNotice (b : Bytes) (n : Notice) : Prop :=
  Shows b [(0, 1, n.position.val + 1), (1, 1, 16 * verdictNumber n.before + verdictNumber n.after), (2, 1, reasonNumber n.reason),
    (3, 1, 0), (4, 2, n.cls.toNat), (6, 6, n.serial.toNat), (12, 2, twosComplement n.score), (14, 2, n.cycle.toNat)]

/-- A SIGHTING entry shows an entry of the cache, or 0 throughout beyond its end (R101). -/
def ShowsSighting (b : Bytes) (e : Option Sighting) : Prop :=
  (e = none → b = List.replicate 24 0) ∧
    ∀ x, e = some x →
      Shows b [(0, 1, 128 + 64 * x.lastOdo.isSome.toNat), (1, 1, 0), (2, 2, x.cls.toNat), (4, 6, x.serial.toNat),
        (10, 4, (x.lastOdo.map (fun o => o.toNat)).getD 0), (20, 4, 0)] ∧
      ∀ p : Pos, (beNat ((b.drop 14).take 6)).testBit p.val = decide (p ∈ x.holders)

/-- A REVOCATION entry shows an entry of the list, or 0 throughout beyond its end (R113). -/
def ShowsRevocation (b : Bytes) (e : Option Revocation) : Prop :=
  (e = none → b = List.replicate 12 0) ∧
    ∀ x, e = some x → Shows b [(0, 2, x.cls.toNat), (2, 3, x.lot.toNat),
      (5, 1, match x.scope with
        | .wholeLot => 0
        | .serial _ => 1),
      (6, 6, match x.scope with
        | .wholeLot => 0
        | .serial n => n.toNat)]

/-- A SETUP entry shows the Setup record (R169). -/
def ShowsSetup (b : Bytes) (p : Setup) : Prop :=
  Shows b [(0, 1, p.positionCount), (1, 1, p.gapSlots), (2, 1, p.verifierSlots), (3, 1, p.answerTimeout),
    (4, 2, p.stillTimeout), (6, 1, p.lostCycles), (7, 1, policyNumber p.unknownPolicy), (8, 2, p.undecidedRetry),
    (10, 2, p.unknownClamp), (12, 1, p.defaultStrokeCap), (13, 3, 0)]

/-- The KEY-STATUS entry shows state and check value of every slot (R87, R188). -/
def ShowsKeyStatus (b : Bytes) (k : KeyStore) : Prop :=
  ∀ i : SlotNo, Shows b [
    (5 * i.val, 1, match k.slots[i] with
      | .blank => 0
      | .programmed _ => 1
      | .faulty => 2),
    (5 * i.val + 1, 4, (checkValue k.slots[i]).toNat)]

/-- The DEVICE entry shows the codes of the part, the reset cause and the key store (R157). -/
def ShowsDevice (b : Bytes) (cause : ResetCause) (k : KeyStore) : Prop :=
  Shows b [(0, 2, 0x5D21), (2, 2, 0x0048), (4, 1, 1),
    (5, 1, [ResetCause.none, .power, .pin, .line].idxOf cause), (6, 4, k.epoch.toNat), (10, 1, k.boundary),
    (11, 1, 16 * (match k.op with
        | .idle => 0
        | .programming _ _ _ => 1
        | .erasing _ _ => 2
        | .protecting _ _ => 3
        | .epochUpdate _ => 4) +
      [KeyResult.none, .programmed, .programFaulty, .erased, .eraseFaulty, .protectDone].idxOf k.lastResult),
    (12, 4, 0)]

/-- The items of a write whose table and index no item of the pending edit set has (R164). -/
def joining (edits items : List EditItem) : List EditItem :=
  items.filter (fun y => decide (∀ x ∈ edits, x.entry ≠ y.entry))

/-- The pending edit set after a write (R164): an item of a table and index that the write names is replaced in place, the other
items stay, and the rest of the write joins the tail in index order. -/
structure SetStaged (items edits edits' : List EditItem) : Prop where
  replaced : ∀ (k : Nat) (x y : EditItem), edits[k]? = some x → y ∈ items → y.entry = x.entry → edits'[k]? = some y
  kept : ∀ (k : Nat) (x : EditItem), edits[k]? = some x → (∀ y ∈ items, y.entry ≠ x.entry) → edits'[k]? = some x
  joined : edits'.drop edits.length = joining edits items

/-- A write is staged: the reply carries the active entries, the items join the set, and while the line is STILL without the
hold the set is applied (R163 to R165). -/
def WriteStaged (s t : State) (tag : Byte) (echo : Bytes) (items : List EditItem) : Prop :=
  ∃ edits : List EditItem, SetStaged items s.mgt.edits edits ∧
    portU t = portU s ++ [{ bytes := serviceTelegram 0x00 0x00 tag 0x80 echo, opensGap := false }] ∧
    (s.fwd.lineState = .cycling ∨ s.mgt.hold = true →
      Answers { s with mgt := { s.mgt with edits } } t tag 0x80 echo) ∧
    (s.fwd.lineState = .still → s.mgt.hold = false → ∃ u : State,
      Answers { s with mgt := { s.mgt with edits } } u tag 0x80 echo ∧ t = applyEvent u ∧ t.mgt.edits = [])

/-- A position is revoked by an insert (R108): its work is abandoned, its verdict forced and latched, and it is HELD; score,
decay count, odometers and worn flag are kept. -/
def revokedRuntime (r : Runtime) : Runtime :=
  { r with pendingRequest := none, remaining := 0, verdict := .revoked, latch := true, reason := some .revoked, phase := .held }

/-- An insert affects a position (R108). -/
def InsertHits (e : Revocation) (r : Runtime) : Prop :=
  (r.phase = .challenging ∨ r.phase = .held) ∧ r.verdict ≠ .revoked ∧ ∃ id, r.identity = some id ∧ Revokes e id

/-- The payload of a REVOKE-INSERT or REVOKE-REMOVE that fails the range check of R107: not 12 bytes, a class 0 or 65535, a
scope code above 1, or a WHOLE-LOT with a serial. -/
def UnfitRevocation (payload : Bytes) : Prop :=
  payload.length ≠ 12 ∨ ∃ (cls : Code) (lot : Lot) (scope : Byte) (serial : Serial),
    payload = be 2 cls.toNat ++ be 3 lot.toNat ++ [scope] ++ be 6 serial.toNat ∧
      (cls = 0 ∨ cls = 0xFFFF ∨ 1 < scope.toNat ∨ (scope = 0 ∧ serial ≠ 0))

/-- An erase abandons a record of a position: a challenge that captured a slot of the page (R77). -/
def EraseHits (s : State) (page : Fin 4) (p : Pos) : Prop :=
  ∃ (i : RecNo) (r : Record) (nonce : Nonce) (slot : SlotNo),
    s.sch.records[i] = some r ∧ r.position = p ∧ r.query = .challenge nonce slot ∧ slot.val / 4 = page.val

/-- A key operation is over: KST is IDLE, or runs the epoch update that was pending (R182, R184 to R186); attention KEY-DONE
is latched, and no challenge waits in AWAITING-KEY any more (R79). -/
structure OperationOver (s t : State) : Prop where
  op : t.kst.op = if s.kst.epochPending = true then .epochUpdate (s.now + 4) else .idle
  noPending : t.kst.epochPending = false
  epoch : t.kst.epoch = s.kst.epoch
  keyDone : t.mgt.attention.keyDone = true
  verified : ∀ (i : RecNo) (r : Record) (nonce : Nonce) (slot : SlotNo), t.sch.records[i] = some r →
    r.query = .challenge nonce slot → ¬ ∃ n, AwaitingKey t i n
  frame : t = { s with
    run := t.run, sightings := t.sightings, sch := { s.sch with queue := t.sch.queue, records := t.sch.records },
    mgt := { s.mgt with notices := t.mgt.notices, attention := t.mgt.attention }, kst := t.kst }

/-- No answer waits for the key store. -/
def NoneAwaits (s : State) : Prop := ∀ i n, ¬ AwaitingKey s i n

/-- A relation of one step, taken for every member of a list in order. -/
def Each {α : Type} (R : α → State → State → Prop) : List α → State → State → Prop
  | [], s, t => t = s
  | x :: l, s, t => ∃ u : State, R x s u ∧ Each R l u t

/-- The verification finds no key (R60, R71): no evidence, the round ends, key_missing and attention KEY-MISSING are set. -/
def KeyMissingEnd (s t : State) (i : RecNo) (p : Pos) : Prop :=
  OthersKeep p s t ∧ t.run[p] = { s.run[p] with keyMissing := true, remaining := 0, phase := .held } ∧
    t = { s with
      run := t.run, sch := { s.sch with records := s.sch.records.set i.val none i.isLt },
      mgt := { s.mgt with attention := { s.mgt.attention with keyMissing := true } } }

/-- The handling of an answer by EVD (R32, R33, R37 to R42): against the response word expected, and for a passing answer by
the odometer tests of a first or a later pass. -/
structure AnswerJudged (s t : State) (i : RecNo) (p : Pos) (e : ClassEntry) (word response odo : Word32) : Prop where
  fails : response ≠ word → t.sightings = s.sightings ∧
    (e.failLatch = false → AnswerHandled s t i p e (clampedScore s.run[p].score e.wFail) .fail s.run[p]) ∧
    (e.failLatch = true → CounterfeitForced s t i p (clampedScore s.run[p].score e.wFail) .fail)
  first : response = word → s.run[p].odoRef = none →
    (∀ x ∈ s.sightings, p ∈ x.holders → ∀ l, x.lastOdo = some l → l ≤ odo) →
    AnswerHandled s t i p e (clampedScore s.run[p].score e.wPass) .pass
      { s.run[p] with
        odoRef := some { odo, strokes := s.run[p].strokes }, lastOdo := some odo,
        worn := s.run[p].worn || decide (e.lifeLimit ≠ 0 ∧ e.lifeLimit ≤ odo.toNat) } ∧
    OdometerRecorded p odo s.sightings t.sightings
  firstBelow : response = word → s.run[p].odoRef = none → ∀ (a : List Sighting) (x : Sighting) (b : List Sighting) (l : Word32),
    s.sightings = a ++ x :: b → (∀ y ∈ a, p ∉ y.holders) → p ∈ x.holders → x.lastOdo = some l → odo < l →
    CounterfeitForced s t i p (-1000) .rollback
  laterBelow : response = word → ∀ ref : OdoRef, s.run[p].odoRef = some ref → odo < ref.odo →
    CounterfeitForced s t i p (-1000) .rollback
  later : response = word → ∀ (ref : OdoRef) (n expected tol : Nat) (w : Int) (reason : Reason),
    s.run[p].odoRef = some ref → ref.odo ≤ odo → n = s.run[p].strokes - ref.strokes → expected = ref.odo.toNat + n →
    tol = e.odoTol + n * e.slack / 256 →
    (odo.toNat + tol < expected ∧ reason = .lag ∧
        w = -(min (e.lagCap : Int) (((expected - odo.toNat - tol) * e.lagRate : Nat) : Int))) ∨
      (expected + tol < odo.toNat ∧ reason = .ahead ∧ w = e.wAhead) ∨
      (expected ≤ odo.toNat + tol ∧ odo.toNat ≤ expected + tol ∧ reason = .odoOk ∧ w = e.wOdoOk) →
    AnswerHandled s t i p e (clampedScore (clampedScore s.run[p].score e.wPass) w) reason
      { s.run[p] with
        lastOdo := some odo, worn := s.run[p].worn || decide (e.lifeLimit ≠ 0 ∧ e.lifeLimit ≤ odo.toNat) } ∧
    OdometerRecorded p odo s.sightings t.sightings

/-- The answer held in an AWAITING-KEY record is verified under R71: discarded for a missing key, or handled by EVD. -/
def HeldAnswerVerified (i : RecNo) (s t : State) : Prop :=
  ∀ (rec : Record) (nonce : Nonce) (slot : SlotNo) (odo response : Word32) (n : Nat), s.sch.records[i] = some rec →
    rec.query = .challenge nonce slot → rec.state = .awaitingKey odo response n →
    (s.kst.slots[slot] = .blank ∨ s.kst.slots[slot] = .faulty → KeyMissingEnd s t i rec.position) ∧
    (∀ (key : Key) (id : Identity) (e : ClassEntry), s.kst.slots[slot] = .programmed key →
      s.run[rec.position].phase = .challenging → s.run[rec.position].identity = some id →
      classOf s s.run[rec.position] = some e →
      AnswerJudged s t i rec.position e (responseWord key nonce id odo) response odo)

/-- The answers that wait in AWAITING-KEY are verified one after another in the order of their arrival (R79). -/
def VerifiedInOrder (s t : State) : Prop :=
  ∃ order : List RecNo, order.Nodup ∧ (∀ i, i ∈ order ↔ ∃ n, AwaitingKey s i n) ∧
    order.Pairwise (fun i j => ∀ n m, AwaitingKey s i n → AwaitingKey s j m → n ≤ m) ∧ Each HeldAnswerVerified order s t

/-- KST after the array work of a completion and before the verifications: IDLE with what the array holds now, KEY-DONE
latched (R182, R184, R185). -/
def operationDone (s : State) (k : KeyStore) : State :=
  { s with kst := { k with op := .idle, epochPending := s.kst.epochPending },
           mgt := { s.mgt with attention := { s.mgt.attention with keyDone := true } } }

/-- A position is served at the end of a program of a slot (R182): HELD, key_missing, its class naming the slot. -/
def keyServed (s : State) (slot : SlotNo) (p : Pos) : Bool :=
  decide (s.run[p].phase = .held ∧ s.run[p].keyMissing = true) && (classOf s s.run[p]).any (fun e => decide (e.keySlot = slot))

/-! ### The application of the pending edit set (R166) -/

/-- The class of the identity a position holds. -/
def classCode (s : State) (p : Pos) : Option Code := s.run[p].identity.map Identity.cls

/-- Step 1: every item replaces the active entry of its table and index. -/
structure EntriesReplaced (items : List EditItem) (s t : State) : Prop where
  config : ∀ (p : Pos) (c : PosConfig), .config p c ∈ items → t.configs[p] = c
  configKept : ∀ p : Pos, (∀ c, .config p c ∉ items) → t.configs[p] = s.configs[p]
  cls : ∀ (i : ClassIdx) (e : ClassEntry), .cls i e ∈ items → t.mgt.classes[i] = e
  clsKept : ∀ i : ClassIdx, (∀ e, .cls i e ∉ items) → t.mgt.classes[i] = s.mgt.classes[i]
  frame : t = { s with configs := t.configs, mgt := { s.mgt with classes := t.mgt.classes } }

/-- Step 2 for one POSITION-CONFIG item: the reaction of R4 to a change from `old` to `new`. -/
structure ConfigReaction (p : Pos) (old new : PosConfig) (s t : State) : Prop where
  disabled : old.enabled = true → new.enabled = false → s.run[p].phase ≠ .disabled → PartRemoved p .disabled .disabled s t
  enabled : old.enabled = false → new.enabled = true → p.val + 1 ≤ s.mgt.setup.positionCount →
    t = { s with run := t.run } ∧ OthersKeep p s t ∧ t.run[p] = Runtime.cleared .vacant
  restarted : old.enabled = new.enabled → s.run[p].phase = .settling →
    old.settleCycles ≠ new.settleCycles ∨ old.watchForm ≠ new.watchForm ∨ old.watchMask ≠ new.watchMask →
    t = { s with run := t.run } ∧ OthersKeep p s t ∧ t.run[p] = { s.run[p] with settleCount := 0 }
  kept : (old.enabled = true ∧ new.enabled = false ∧ s.run[p].phase = .disabled) ∨
      (old.enabled = false ∧ new.enabled = true ∧ s.mgt.setup.positionCount < p.val + 1) ∨
      (old.enabled = new.enabled ∧ (s.run[p].phase ≠ .settling ∨ (old.settleCycles = new.settleCycles ∧
        old.watchForm = new.watchForm ∧ old.watchMask = new.watchMask))) → t = s

/-- A position's class index names an entry whose new code is not its identity's class. -/
def losesClass (s : State) (i : ClassIdx) (code : Code) (p : Pos) : Bool :=
  decide (s.run[p].classIndex = some i ∧ classCode s p ≠ some code)

/-- Step 3 for one CLASS item (R51, R76): such positions lose class index and work; those not latched become UNDECIDED,
CLASS-UNKNOWN and HELD, with a notice where the verdict was another. -/
structure ClassLost (i : ClassIdx) (code : Code) (s t : State) : Prop where
  unlatched : ∀ p : Pos, losesClass s i code p = true → s.run[p].latch = false → t.run[p] = { s.run[p] with
    classIndex := none, verdict := .undecided, reason := some .classUnknown, phase := .held, pendingRequest := none,
    remaining := 0 }
  latched : ∀ p : Pos, losesClass s i code p = true → s.run[p].latch = true → t.run[p] = { s.run[p] with
    classIndex := none, pendingRequest := none, remaining := 0 }
  others : ∀ p : Pos, losesClass s i code p = false → t.run[p] = s.run[p]
  queue : t.sch.queue = s.sch.queue.filter (fun e => !losesClass s i code e.position)
  freed : ∀ (n : RecNo) (r : Record), s.sch.records[n] = some r →
    t.sch.records[n] = if losesClass s i code r.position = true then none else some r
  free : ∀ n : RecNo, s.sch.records[n] = none → t.sch.records[n] = none
  notices : (t.mgt.notices, t.mgt.attention) = offered ((ascending (fun p => losesClass s i code p && !s.run[p].latch &&
    s.run[p].verdict != .undecided)).map (fun p => noticeOf s p .undecided .classUnknown)) s
  frame : t = { s with
    run := t.run, sch := { s.sch with queue := t.sch.queue, records := t.sch.records },
    mgt := { s.mgt with notices := t.mgt.notices, attention := t.mgt.attention } }

/-- A position holds an identity of a class and no class index. -/
def gainsClass (s : State) (code : Code) (p : Pos) : Bool :=
  decide (s.run[p].classIndex = none ∧ classCode s p = some code)

/-- Step 4 for one CLASS item (R51, R57): such positions take the index; those not latched start anew with score 0 and a NEW
request. -/
structure ClassGained (i : ClassIdx) (code : Code) (s t : State) : Prop where
  empty : code = 0 → t = s
  latched : code ≠ 0 → ∀ p : Pos, gainsClass s code p = true → s.run[p].latch = true →
    t.run[p] = { s.run[p] with classIndex := some i }
  unlatched : code ≠ 0 → ∀ p : Pos, gainsClass s code p = true → s.run[p].latch = false → Unasked s p →
    t.run[p] = { s.run[p] with
      classIndex := some i, score := 0, phase := .challenging, sweepAge := 0, pendingRequest := some .new,
      roundKind := .new }
  others : ∀ p : Pos, gainsClass s code p = false → t.run[p] = s.run[p]
  queue : code ≠ 0 → ∀ urgent due : List Request, QueueGroups s.sch.queue urgent due →
    (∀ p : Pos, gainsClass s code p = true → s.run[p].latch = false → Unasked s p) →
    t.sch.queue = urgent ++ (ascending (fun p => gainsClass s code p && !s.run[p].latch)).map
      (fun p => { position := p, kind := .new }) ++ due
  frame : t = { s with run := t.run, sch := { s.sch with queue := t.sch.queue } }

/-- Step 5 for one CLASS item (R50): the positions of the entry are evaluated against its new thresholds with reason
TABLE-CHANGE; scores and counts are kept. -/
structure ClassReevaluated (i : ClassIdx) (e : ClassEntry) (s t : State) : Prop where
  verdict : ∀ p : Pos, s.run[p].classIndex = some i →
    VerdictStep e s.run[p].latch s.run[p].score s.run[p].verdict t.run[p].verdict
  run : ∀ p : Pos, s.run[p].classIndex = some i →
    (t.run[p].verdict = s.run[p].verdict → t.run[p] = s.run[p]) ∧
    (t.run[p].verdict ≠ s.run[p].verdict → calledDue s.run[p] t.run[p].verdict = false →
      t.run[p] = { s.run[p] with verdict := t.run[p].verdict, reason := some .tableChange }) ∧
    (calledDue s.run[p] t.run[p].verdict = true → Unasked s p → t.run[p] = { s.run[p] with
      verdict := t.run[p].verdict, reason := some .tableChange, phase := .challenging, sweepAge := 0,
      pendingRequest := some .due, roundKind := .due })
  others : ∀ p : Pos, s.run[p].classIndex ≠ some i → t.run[p] = s.run[p]
  queue : (∀ p : Pos, s.run[p].classIndex = some i → calledDue s.run[p] t.run[p].verdict = true → Unasked s p) →
    t.sch.queue = s.sch.queue ++ (ascending (fun p => decide (s.run[p].classIndex = some i) &&
      calledDue s.run[p] t.run[p].verdict)).map (fun p => { position := p, kind := .due })
  notices : (t.mgt.notices, t.mgt.attention) = offered ((ascending (fun p => t.run[p].verdict != s.run[p].verdict)).map
    (fun p => noticeOf s p t.run[p].verdict .tableChange)) s
  frame : t = { s with
    run := t.run, sch := { s.sch with queue := t.sch.queue },
    mgt := { s.mgt with notices := t.mgt.notices, attention := t.mgt.attention } }

/-- Step 2 over an item. -/
def Reacts (old : Vector PosConfig 48) (x : EditItem) (s t : State) : Prop :=
  match x with
  | .config p c => ConfigReaction p old[p] c s t
  | .cls _ _ => t = s

/-- Step 3 over an item. -/
def Loses (x : EditItem) (s t : State) : Prop :=
  match x with
  | .config _ _ => t = s
  | .cls i e => ClassLost i e.code s t

/-- Step 4 over an item. -/
def Gains (x : EditItem) (s t : State) : Prop :=
  match x with
  | .config _ _ => t = s
  | .cls i e => ClassGained i e.code s t

/-- Step 5 over an item: the nonzero code is kept and another field has changed. -/
def Reevaluates (old : Vector ClassEntry 32) (x : EditItem) (s t : State) : Prop :=
  match x with
  | .config _ _ => t = s
  | .cls i e =>
    (e.code ≠ 0 ∧ old[i].code = e.code ∧ old[i] ≠ e → ClassReevaluated i e s t) ∧
      (e.code = 0 ∨ old[i].code ≠ e.code ∨ old[i] = e → t = s)

/-- The five steps of R166 over the items of the set, each step over all items in arrival order before the next. -/
def AppliedInSteps (s t : State) : Prop :=
  ∃ replaced reacted lost gained judged : State, EntriesReplaced s.mgt.edits s replaced ∧
    Each (Reacts s.configs) s.mgt.edits replaced reacted ∧ Each Loses s.mgt.edits reacted lost ∧
    Each Gains s.mgt.edits lost gained ∧ Each (Reevaluates s.mgt.classes) s.mgt.edits gained judged ∧
    t = { judged with mgt := { judged.mgt with edits := [] } }

/-! ### Resets -/

/-- What the abort of the operation in flight leaves in the array (R189). -/
structure ArrayAfterAbort (k k' : KeyStore) : Prop where
  slots : ∀ i : SlotNo, k'.slots[i] = if k.reaches i = true then .faulty else k.slots[i]
  boundary : k'.boundary = k.boundary
  epoch : k'.epoch = k.epoch ∨ (k.updating = true ∧ k'.epoch = k.epoch + 1)

/-- The key store right after a reset at a tick (R180, R186, R193). -/
structure KeyStoreAfterReset (now : Nat) (k k' : KeyStore) : Prop where
  array : ArrayAfterAbort k k'
  op : k'.op = if k'.epoch = BitVec.allOnes 32 then .idle else .epochUpdate (now + 4)
  noPending : k'.epochPending = false
  noResult : k'.lastResult = .none

end Sys2Proof.Machine
end

