-- ==== Sys2Proof/Certificates/Slice0/Obligations.lean ====
section
/-! DEFINITION. The statements about the ZL48, from the numbered rules of spec/. Codes of telegrams, requests, replies and
causes stand in them as the numbers of 08, Layouts and code values (R153). -/

open Sys2Proof Sys2Proof.Machine

/-! ### Steps, resets and the time base -/

/-- One command at a time, the first that came before the others (00_scope.md, Conventions; LOG 13). With no command waiting
a step is one tick of the part's time base (the model's choice, LOG 2): the tick count and a running still timer rise by one
(R140); no tick counts while RESET is held (R192). -/
def Obligations.StepTakesTheFrontCommand : Prop :=
  (∀ (s : State) (c : Instr) (rest : List Instr), s.pending = c :: rest → step s = exec c { s with pending := rest }) ∧
  (∀ s : State, s.pending = [] →
    step s = .next (if s.live = true then
      { s with now := s.now + 1, fwd := { s.fwd with stillTimer := s.fwd.stillTimer.map (· + 1) } } else s))

/-- No command ends in a fault or a refusal: damaged telegrams are discarded and refused requests answered (R131, R144,
R154). -/
def Obligations.EveryCommandAnswersNext : Prop :=
  ∀ (c : Instr) (s : State), ∃ t : State, exec c s = .next t

/-- The delivered part after its power-on reset, in the values the manual gives (R2, R5, R55, R102, R115, R126, R152, R158,
R168, R176 to R180, R193, R195, R198). -/
def Obligations.ResetStateIsAsDelivered : Prop :=
  let r := State.reset
  r.device = .starting ∧ r.startCount = 0 ∧
    (∀ p : Pos, r.configs[p] = { enabled := true, settleCycles := 16, watchForm := .allSet, watchMask := 0,
                                 gateOffset := 0, gateLength := 1, clampOffset := none }) ∧
    (∀ p : Pos, r.run[p] = Runtime.cleared .vacant) ∧
    r.sch.queue = [] ∧ r.sch.cursor.val + 1 = 1 ∧ (∀ i : RecNo, r.sch.records[i] = none) ∧ r.sch.tagCounter = 0 ∧
    r.sch.nonceCounter = 0 ∧ r.sightings = [] ∧ r.revocations = [] ∧ (∀ p : Pos, r.gatedMap[p] = false) ∧
    r.fwd.framing = .notSet ∧ r.fwd.lineState = .still ∧ r.fwd.stillTimer = none ∧ r.fwd.expectation = none ∧
    r.fwd.gap = none ∧ r.fwd.lastServed = .verifier ∧ r.fwd.masterQueue = [] ∧ r.fwd.cycleCount = 0 ∧
    (∀ i : ClassIdx, r.mgt.classes[i].code = 0) ∧ r.mgt.edits = [] ∧ r.mgt.hold = false ∧
    r.mgt.setup = { positionCount := 48, gapSlots := 6, verifierSlots := 2, answerTimeout := 20, stillTimeout := 50,
                    lostCycles := 8, undecidedRetry := 64, unknownPolicy := .block, unknownClamp := 0, defaultStrokeCap := 8 } ∧
    r.mgt.setupLock = false ∧ r.mgt.notices = [] ∧ r.mgt.attention = Attention.clear ∧ r.mgt.mask = Attention.clear ∧
    r.mgt.resetCause = .power ∧ (∀ i : SlotNo, r.kst.slots[i] = .blank) ∧ r.kst.boundary = 16 ∧ r.kst.epoch = 0 ∧
    r.kst.op = .epochUpdate (r.now + 4) ∧ r.kst.epochPending = false ∧ r.kst.lastResult = .none

/-- POR with the RESET line released, and the release of the line, return every block to its delivered values; the key
store keeps its array but for the operation in flight (R27, R55, R102, R115, R130, R152, R176, R189 to R193, R198). A POR while
the line is held waits for the release, which then gives the POR; a release without power only releases the line (LOG 16); a
release without an assertion is no event (LOG 3). -/
def Obligations.PowerOnAndPinResetReturnDeliveredValues : Prop :=
  ∀ s : State,
    (s.resetAsserted = false → ∃ t, exec .por s = .next t ∧ KeyStoreAfterReset s.now s.kst t.kst ∧
      t = { State.reset with pending := s.pending, now := s.now, freeIndex := t.freeIndex, kst := t.kst }) ∧
    (s.resetAsserted = true → s.supply = .on → ∃ t, exec .pinReset s = .next t ∧ KeyStoreAfterReset s.now s.kst t.kst ∧
      t = { State.reset with pending := s.pending, now := s.now, freeIndex := t.freeIndex, kst := t.kst,
                             mgt := { State.reset.mgt with resetCause := .pin } }) ∧
    (s.resetAsserted = true → s.supply = .risen → ∃ t, exec .pinReset s = .next t ∧ KeyStoreAfterReset s.now s.kst t.kst ∧
      t = { State.reset with pending := s.pending, now := s.now, freeIndex := t.freeIndex, kst := t.kst }) ∧
    (s.resetAsserted = true → ∃ t, exec .por s = .next t ∧ ArrayAfterAbort s.kst t.kst ∧ t.kst.op = .idle ∧
      t.kst.epochPending = false ∧
      t = { s with supply := .risen, freeIndex := t.freeIndex, kst := t.kst,
                   fwd := { s.fwd with dSending := none, dWaiting := none, uSending := none, uReady := [] } }) ∧
    (s.resetAsserted = true → s.supply = .off → exec .pinReset s = .next { s with resetAsserted := false }) ∧
    (s.resetAsserted = false → exec .pinReset s = .next s)

/-- A line reset keeps the tables, the Setup record with its lock and the attention mask, and resets the rest (R175, R27,
R103, R152, R176, R193, R198). That the OK answer is what stands in sending is LOG 17. -/
def Obligations.LineResetKeepsTheTables : Prop :=
  ∀ (s : State) (f : Frame), Arrives s f 0x70 → ∃ t, exec (.lineReset f) s = .next t ∧
    KeyStoreAfterReset s.now s.kst t.kst ∧
    (∀ p : Pos, t.run[p] = Runtime.cleared
      (if s.configs[p].enabled = true ∧ p.val + 1 ≤ s.mgt.setup.positionCount then .vacant else .disabled)) ∧
    portU t = [{ bytes := serviceTelegram 0x00 0x00 f.tag 0x80 [], opensGap := false }] ∧
    t = { s with
      freeIndex := t.freeIndex, resetAsserted := false, supply := .on, device := .starting, startCount := 0, run := t.run,
      sch := State.reset.sch, sightings := s.sightings.map (fun e => { e with holders := [] }),
      gatedMap := State.reset.gatedMap, kst := t.kst,
      fwd := { State.reset.fwd with dSending := s.fwd.dSending, uSending := t.fwd.uSending, uReady := t.fwd.uReady },
      mgt := { s.mgt with edits := [], hold := false, notices := [], attention := Attention.clear, resetCause := .line } }

/-- The assertion of the RESET line and the loss of power break off the sendings and abort the key operation (R189, R190,
R192); the rest of the state stands until the reset that follows (LOG 21). While the line is held or power is absent, no
telegram is taken and no event of the time base acts (R192): every command but those of the supply and the line leaves the
state as it is. -/
def Obligations.ResetLineAndPowerLossStopThePart : Prop :=
  (∀ s : State, ∃ t u : State,
    exec .powerLoss s = .next t ∧ (s.live = true → exec .resetAssert s = .next u) ∧
    (s.live = false → exec .resetAssert s = .next { s with resetAsserted := true }) ∧
    ArrayAfterAbort s.kst t.kst ∧ t.kst.op = .idle ∧ t.kst.epochPending = false ∧
    t = { s with supply := .off, freeIndex := t.freeIndex, kst := t.kst,
                 fwd := { s.fwd with dSending := none, dWaiting := none, uSending := none, uReady := [] } } ∧
    u = { t with supply := s.supply, resetAsserted := true }) ∧
  (∀ (s : State) (c : Instr), s.resetAsserted = true ∨ s.supply ≠ .on →
    c ≠ .por → c ≠ .powerLoss → c ≠ .resetAssert → c ≠ .pinReset → exec c s = .next s)

/-! ### Telegrams and their check sequence -/

/-- The tests of R144: a service telegram that fails one is discarded by every command that delivers one, with no answer,
no flag and no other effect; one that passes is read with its fields. -/
def Obligations.DamagedServiceTelegramsAreDiscarded : Prop :=
  (∀ bytes : Bytes, (parseService bytes).isSome = true ↔ ServiceTests bytes) ∧
    (∀ bytes : Bytes, ServiceTests bytes → parseService bytes = some
      { node := bytes.getD 1 0, origin := bytes.getD 2 0, tag := bytes.getD 3 0, code := bytes.getD 4 0,
        payload := (bytes.drop 6).take (bytes.getD 5 0).toNat }) ∧
    (∀ (s : State) (c : Instr) (bytes : Bytes), s.live = true → serviceBytes c = some bytes → ¬ ServiceTests bytes →
      exec c s = .next s)

/-- Every telegram the part closes with a check sequence is good at its receiver (R132), and a service telegram it builds
passes the tests of R144; over the bytes 0x31 to 0x39 the check sequence is 0x29B1. -/
def Obligations.SentTelegramsAreGood : Prop :=
  (∀ bytes : Bytes, checkRegister (withCheck bytes) = 0) ∧
    (∀ (node origin tag code : Byte) (payload : Bytes), node.toNat ≤ 48 → origin = 0x00 ∨ origin = 0x01 → tag.toNat ≤ 15 →
      payload.length ≤ 240 → ServiceTests (serviceTelegram node origin tag code payload)) ∧
    checkRegister [0x31, 0x32, 0x33, 0x34, 0x35, 0x36, 0x37, 0x38, 0x39] = 0x29B1

/-! ### The cycle path -/

/-- A cycle telegram that fails a test is not forwarded, not gated, not counted and no boundary; attention FRAMING is
latched, whatever the framing and the device state (R134). -/
def Obligations.BadCycleTelegramOnlyLatchesFraming : Prop :=
  ∀ (s : State) (body : Bytes) (portFree : Bool), s.live = true → ¬ CycleTests s.fwd.framing body →
    exec (.cycle body portFree) s =
      .next { s with mgt := { s.mgt with attention := { s.mgt.attention with framing := true } } }

/-- A good cycle telegram locks or keeps the framing, raises the verifier cycle count, sets the line CYCLING, closes the
gap, and is sent on port D as gated slot by slot under the state of its boundary, or waits for port D (R117, R120, R124 to
R126, R133, R135, R136). A staged set that is not held is applied at the boundary (R165); in RUNNING the cycle-counted fields
advance before or after it, an order the model leaves free (LOG 7), as BoundaryAdvance says (order of the positions: LOG 8; sweep
age of a latched position: LOG 24; decay_period 1 after evidence: LOG 25). The start count rises in STARTING, and the passage may
follow (R195, R196). What the boundary may touch besides is the frame's list; revocations, key store, Setup and hold are not
in it. -/
def Obligations.GoodCycleTelegramIsGatedAndSent : Prop :=
  ∀ (s : State) (body : Bytes) (portFree : Bool), s.live = true → CycleTests s.fwd.framing body →
    ∃ t, exec (.cycle body portFree) s = .next t ∧
      (∀ p : Pos, t.gatedMap[p] = (gateAction t p != .pass)) ∧ checkRegister (gatedTelegram t body) = 0 ∧
      GatedSlotBySlot t body (gatedTelegram t body) ∧
      t.startCount = (if s.device = .starting then min 8 (s.startCount + 1) else s.startCount) ∧
      t.device = (if s.device = .running ∨ (7 ≤ s.startCount ∧ s.mgt.setupLock = true) then .running else .starting) ∧
      (s.mgt.edits ≠ [] → s.mgt.hold = false → ∃ b u : State,
        b = { atBoundary (body.getD 3 0) s with freeIndex := b.freeIndex } ∧
        ((s.device = .starting ∧ u = applyEvent b) ∨
          (s.device = .running ∧ ∃ v : State,
            (BoundaryAdvance b v ∧ u = applyEvent v) ∨ (v = applyEvent b ∧ BoundaryAdvance v u))) ∧
        t = { u with freeIndex := t.freeIndex, device := t.device, startCount := t.startCount, gatedMap := t.gatedMap,
                     fwd := t.fwd }) ∧
      (let expected : Expectation :=
          { cycleNumber := BitVec.ofNat 16 ((body.getD 0 0).toNat * 256 + (body.getD 1 0).toNat),
            slotCount := (body.getD 2 0).toNat, slotSize := (body.getD 3 0).toNat }
        let sent : Bool := portFree || s.fwd.dSending.isNone
        t.fwd = { s.fwd with
          framing := if body.getD 3 0 = 4 then .short else .long, cycleCount := s.fwd.cycleCount + 1,
          lineState := .cycling, stillTimer := some 0, gap := none,
          expectation := if sent then some expected else none,
          dSending := if sent then some (gatedTelegram t body) else s.fwd.dSending,
          dWaiting := if sent then none else some { bytes := gatedTelegram t body, expectation := expected } }) ∧
      t = { s with
        freeIndex := t.freeIndex, device := t.device, startCount := t.startCount, configs := t.configs, run := t.run,
        sch := { s.sch with queue := t.sch.queue, records := t.sch.records }, sightings := t.sightings,
        gatedMap := t.gatedMap, fwd := t.fwd,
        mgt := { s.mgt with classes := t.mgt.classes, edits := t.mgt.edits, notices := t.mgt.notices,
                            attention := t.mgt.attention } }

/-- In STARTING a good cycle telegram raises the start count to 8 at most, and the part passes to RUNNING exactly where the
count stands at 8 with the Setup lock set, at the boundary or by the event PASSAGE_TO_RUNNING (R195, R196); no position
moves (R26). That PASSAGE_TO_RUNNING leaves the state as it is where its conditions do not stand is the model's choice, LOG 3. -/
def Obligations.StartCountBringsThePassage : Prop :=
  ∀ s : State, s.live = true →
    (∀ (body : Bytes) (portFree : Bool), CycleTests s.fwd.framing body → s.device = .starting →
      s.mgt.edits = [] ∨ s.mgt.hold = true →
      ∃ t, exec (.cycle body portFree) s = .next t ∧ t.startCount = min 8 (s.startCount + 1) ∧
        t.device = (if 7 ≤ s.startCount ∧ s.mgt.setupLock = true then .running else .starting) ∧
        t = { s with device := t.device, startCount := t.startCount, gatedMap := t.gatedMap, fwd := t.fwd }) ∧
    (s.device = .starting → s.startCount = 8 → s.mgt.setupLock = true →
      exec .passageToRunning s = .next { s with device := .running }) ∧
    (s.device = .running ∨ s.startCount ≠ 8 ∨ s.mgt.setupLock = false → exec .passageToRunning s = .next s)

/-- In RUNNING, where no staged set is applied, a good cycle telegram advances the cycle-counted fields of every position:
sweep age in HELD, decay count in CHALLENGING and HELD with a class, both without the latch; where a decay step is due, the score
moves toward 0, the count restarts, and the verdict is evaluated with reason DECAY, with the DUE requests and notices of R47.
Nothing else of the state changes but FWD and the gated map, of which GoodCycleTelegramIsGatedAndSent speaks (R25, R47, R48).
The order of the positions is free (LOG 8), the sweep age of a latched position holds (LOG 24), and a decay_period of 1 gives the
step after evidence at the same boundary too (LOG 25). -/
def Obligations.BoundaryAdvancesEveryPosition : Prop :=
  ∀ (s : State) (body : Bytes) (portFree : Bool), s.live = true → CycleTests s.fwd.framing body → s.device = .running →
    s.mgt.edits = [] ∨ s.mgt.hold = true →
    ∃ t u, exec (.cycle body portFree) s = .next t ∧ BoundaryAdvance (atBoundary (body.getD 3 0) s) u ∧
      t = { u with gatedMap := t.gatedMap, fwd := t.fwd } ∧ t.startCount = s.startCount ∧ t.device = .running

/-- DECAY_STEP: the score moves toward 0, the decay count restarts, the verdict is evaluated with reason DECAY, a change is
reported and may call a DUE round (R47), and other positions are not touched; the event does nothing where no decay step is due,
in STARTING, or while the line is STILL (R25, R48, R140). The one-position event, which advances no sweep age, is LOG 4; that it
does nothing where it is not due is LOG 3; a decay_period of 1 after evidence is LOG 25. -/
def Obligations.DecayStepMovesTheScoreTowardZero : Prop :=
  ∀ (s : State) (p : Pos), s.live = true →
    (∀ e, s.device = .running → s.fwd.lineState = .cycling → DecayIsDue s p e →
      ∃ (t : State) (score : Int) (due : List Request), exec (.decayStep p) s = .next t ∧
        MovedTowardZero e.decayStep s.run[p].score score ∧
        Evaluated e .decay (Unasked s p) { s.run[p] with score, decayCount := 0 } t.run[p] ∧
        VerdictReported s t p s.run[p].verdict t.run[p].verdict .decay s.run[p].identity score ∧
        DueCalls [p] s t due ∧ t.sch = { s.sch with queue := s.sch.queue ++ due } ∧ OthersKeep p s t ∧
        t.sightings = s.sightings ∧ OnlyPositionWork s t) ∧
    (s.device = .starting ∨ s.fwd.lineState = .still ∨ (∀ e, ¬ DecayIsDue s p e) → exec (.decayStep p) s = .next s)

/-- A return that is good and equals the expectation is taken: the expectation becomes none, and the return goes upstream
with the status slot of the state its inputs leave; its sending opens the gap (R137, R141, R151). In STARTING it gives no
inputs (R26). -/
def Obligations.PairedReturnGoesUpstreamWithStatus : Prop :=
  ∀ (s : State) (e : Expectation) (body : Bytes), s.live = true → s.fwd.expectation = some e → ReturnTests e body →
    ∃ t, exec (.cycleReturn body) s = .next t ∧
      portU t = portU s ++ [{ bytes := withCheck (0x02 :: body.take (body.length - 2) ++ [0x0E] ++ statusSlot false t),
                              opensGap := true }] ∧
      (s.device = .starting → t = { s with fwd := t.fwd }) ∧
      t = { s with
        freeIndex := t.freeIndex, run := t.run, sightings := t.sightings,
        sch := { s.sch with queue := t.sch.queue, records := t.sch.records },
        fwd := { s.fwd with expectation := none, uSending := t.fwd.uSending, uReady := t.fwd.uReady },
        mgt := { s.mgt with notices := t.mgt.notices, attention := t.mgt.attention } }

/-- Any other return goes upstream marked damaged and gives no inputs; where one was expected and it has the expected
length, the expectation becomes none and its sending opens the gap (R138). -/
def Obligations.UnpairedReturnIsMarkedDamaged : Prop :=
  ∀ (s : State) (body : Bytes), s.live = true → (∀ e, s.fwd.expectation = some e → ¬ ReturnTests e body) →
    ∃ t, exec (.cycleReturn body) s = .next t ∧
      (∀ e, s.fwd.expectation = some e → body.length + 1 = 5 + e.slotCount * e.slotSize + 2 →
        SendsUp { s with fwd := { s.fwd with expectation := none } } t
          { bytes := withCheck (0x02 :: body.take (body.length - 2) ++ [0x0E] ++ statusSlot true s), opensGap := true }) ∧
      (s.fwd.expectation = none ∨
          (∃ e, s.fwd.expectation = some e ∧ body.length + 1 ≠ 5 + e.slotCount * e.slotSize + 2) →
        SendsUp s t
          { bytes := withCheck (0x02 :: body.take (body.length - 2) ++ [0x0E] ++ statusSlot true s), opensGap := false })

/-- The status slot appended to a return shows, field by field, the state as it stands (R53, R151, R153). -/
def Obligations.StatusSlotShowsTheState : Prop :=
  ∀ (s : State) (damaged : Bool), s.mgt.notices.length ≤ 32 →
    ∃ (flags waiting genuine adverse undecided store high low : Byte) (map : Bytes),
      statusSlot damaged s = [flags, waiting, genuine, adverse, undecided, store, high, low] ++ map ∧
      (flags.getLsbD 7 = true ↔ s.device = .running) ∧
      (flags.extractLsb' 5 2 = 0 ↔ s.fwd.framing = .notSet) ∧ (flags.extractLsb' 5 2 = 1 ↔ s.fwd.framing = .short) ∧
      (flags.extractLsb' 5 2 = 2 ↔ s.fwd.framing = .long) ∧
      flags.getLsbD 4 = s.mgt.hold ∧ flags.getLsbD 3 = s.mgt.setupLock ∧
      (flags.getLsbD 2 = false ↔ (s.mgt.attention.notice = true → s.mgt.mask.notice = true) ∧
        (s.mgt.attention.overrun = true → s.mgt.mask.overrun = true) ∧
        (s.mgt.attention.keyDone = true → s.mgt.mask.keyDone = true) ∧
        (s.mgt.attention.keyMissing = true → s.mgt.mask.keyMissing = true) ∧
        (s.mgt.attention.framing = true → s.mgt.mask.framing = true)) ∧
      flags.getLsbD 1 = damaged ∧ (flags.getLsbD 0 = true ↔ s.fwd.masterQueue.length = 4) ∧
      waiting.toNat = s.mgt.notices.length ∧
      genuine.toNat = ((List.finRange 48).filter (fun p => s.run[p].verdict = .genuine)).length ∧
      adverse.toNat =
        ((List.finRange 48).filter (fun p => s.run[p].verdict = .counterfeit ∨ s.run[p].verdict = .revoked)).length ∧
      undecided.toNat = ((List.finRange 48).filter (fun p => s.run[p].verdict = .undecided)).length ∧
      store.toNat = 16 * (match s.kst.op with
          | .idle => 0
          | .programming _ _ _ => 1
          | .erasing _ _ => 2
          | .protecting _ _ => 3
          | .epochUpdate _ => 4) +
        (match s.kst.lastResult with
          | .none => 0
          | .programmed => 1
          | .programFaulty => 2
          | .erased => 3
          | .eraseFaulty => 4
          | .protectDone => 5) ∧
      high.toNat * 256 + low.toNat = s.fwd.cycleCount.toNat % 65536 ∧
      map.length = 6 ∧ ∀ p : Pos, (beNat map).testBit p.val = s.gatedMap[p]

/-- On a taken return in RUNNING every position is handled once, in an order that is free (LOG 8), and independently of the
others: its runtime half is what the handling of its own input alone makes of it, in every order (R7). The return queues an IDENT
request for each position that completes settling, in that order behind the IDENT and NEW entries (R10, R56); it takes from each
part that leaves its queue entry, its record and its place in a holders list, and reports its verdict in that order (R14, R15). -/
def Obligations.ReturnHandlesPositionsIndependently : Prop :=
  ∀ (s : State) (e : Expectation) (body : Bytes), s.live = true → s.device = .running → s.fwd.expectation = some e →
    ReturnTests e body → ∃ t, exec (.cycleReturn body) s = .next t ∧
      (∀ p : Pos, t.run[p] = (handleInput p (inputOf body p) s).run[p]) ∧
      (∃ u : State, InputsTaken body { s with fwd := { s.fwd with expectation := none } } u ∧ t = { u with fwd := t.fwd }) ∧
      (∀ p : Pos, (e.slotCount ≤ p.val → inputOf body p = .missing) ∧
        (p.val < e.slotCount → e.slotSize = 4 ∨ e.slotSize = 8 →
          let at' (k : Nat) : Byte := body.getD (4 + p.val * e.slotSize + k) 0
          let status : BitVec 16 := at' 0 ++ at' 1
          inputOf body p =
            if status.getLsbD 15 = false then .missing else if status.getLsbD 14 = false then .absent
            else .present (status.setWidth 14) (at' 2 ++ at' 3)))

/-! ### Positions -/

/-- A SETTLING position: each kind of input does what R10 says, the watch condition read bit by bit as R3 says. -/
def Obligations.SettlingFollowsTheWatchCondition : Prop :=
  ∀ (s : State) (p : Pos), s.run[p].phase = .settling →
    (∀ (bits : BitVec 14) (counter : BitVec 16), WatchTrue s.configs[p] bits →
      s.run[p].settleCount + 1 < s.configs[p].settleCycles →
      ∃ t, handleInput p (.present bits counter) s = t ∧ t = { s with run := t.run } ∧ OthersKeep p s t ∧
        t.run[p] = { s.run[p] with settleCount := s.run[p].settleCount + 1, lossCount := 0 }) ∧
    (∀ (bits : BitVec 14) (counter : BitVec 16) (urgent due : List Request), WatchTrue s.configs[p] bits →
      s.configs[p].settleCycles ≤ s.run[p].settleCount + 1 → Unasked s p → QueueGroups s.sch.queue urgent due →
      ∃ t, handleInput p (.present bits counter) s = t ∧ OthersKeep p s t ∧
        t = { s with run := t.run, sch := { s.sch with queue := urgent ++ [{ position := p, kind := .ident }] ++ due } } ∧
        t.run[p] = { s.run[p] with phase := .identifying, settleCount := 0, lossCount := 0, strokes := 0,
                                   prevStroke := counter, pendingRequest := some .ident }) ∧
    (∀ (bits : BitVec 14) (counter : BitVec 16), ¬ WatchTrue s.configs[p] bits →
      ∃ t, handleInput p (.present bits counter) s = t ∧ t = { s with run := t.run } ∧ OthersKeep p s t ∧
        t.run[p] = { s.run[p] with settleCount := 0, lossCount := 0 }) ∧
    PartRemoved p .removed .vacant s (handleInput p .absent s) ∧
    (s.run[p].lossCount + 1 < s.mgt.setup.lostCycles →
      ∃ t, handleInput p .missing s = t ∧ t = { s with run := t.run } ∧ OthersKeep p s t ∧
        t.run[p] = { s.run[p] with settleCount := 0, lossCount := s.run[p].lossCount + 1 }) ∧
    (s.mgt.setup.lostCycles ≤ s.run[p].lossCount + 1 → PartRemoved p .lost .lost s (handleInput p .missing s))

/-- A position in IDENTIFYING, CHALLENGING or HELD: a PRESENT input counts strokes modulo 65536, bounded by the cap, and
saturating at 2^32 - 1; an ABSENT input removes the part; MISSING inputs lose it at lost_cycles (R11, R12, R14, R15, R23). -/
def Obligations.SeatedInputsCountStrokes : Prop :=
  ∀ (s : State) (p : Pos), s.run[p].phase = .identifying ∨ s.run[p].phase = .challenging ∨ s.run[p].phase = .held →
    (∀ (bits : BitVec 14) (new : BitVec 16) (cap : Nat),
      (s.run[p].classIndex = none → cap = s.mgt.setup.defaultStrokeCap) →
      (∀ i, s.run[p].classIndex = some i → cap = s.mgt.classes[i].strokeCap) →
      ∃ (t : State) (delta : Nat), handleInput p (.present bits new) s = t ∧ t = { s with run := t.run } ∧
        delta < 65536 ∧ (s.run[p].prevStroke.toNat + delta) % 65536 = new.toNat ∧ OthersKeep p s t ∧
        t.run[p] = { s.run[p] with
          lossCount := 0, prevStroke := new, strokes := min (s.run[p].strokes + min delta cap) (2 ^ 32 - 1),
          strokeJump := s.run[p].strokeJump || decide (cap < delta) }) ∧
    PartRemoved p .removed .vacant s (handleInput p .absent s) ∧
    (s.run[p].lossCount + 1 < s.mgt.setup.lostCycles →
      ∃ t, handleInput p .missing s = t ∧ t = { s with run := t.run } ∧ OthersKeep p s t ∧
        t.run[p] = { s.run[p] with lossCount := s.run[p].lossCount + 1 }) ∧
    (s.mgt.setup.lostCycles ≤ s.run[p].lossCount + 1 → PartRemoved p .lost .lost s (handleInput p .missing s))

/-- VACANT, LOST and DISABLED positions: a PRESENT input enters SETTLING and counts toward it, with settle_cycles 1 through to
IDENTIFYING on the one return; an ABSENT input leaves or makes the position VACANT; lost_cycles MISSING inputs bring a VACANT
one to LOST; DISABLED takes nothing (R6, R8, R9, R10, R13, R128). -/
def Obligations.VacantAndLostInputs : Prop :=
  ∀ (s : State) (p : Pos),
    (s.run[p].phase = .disabled → ∀ input, handleInput p input s = s) ∧
    (s.run[p].phase = .lost → handleInput p .missing s = s) ∧
    (∀ (bits : BitVec 14) (counter : BitVec 16), s.run[p].phase = .vacant ∨ s.run[p].phase = .lost →
      1 < s.configs[p].settleCycles →
      ∃ (t : State) (count : Nat), handleInput p (.present bits counter) s = t ∧ t = { s with run := t.run } ∧
        OthersKeep p s t ∧ (WatchTrue s.configs[p] bits → count = 1) ∧ (¬ WatchTrue s.configs[p] bits → count = 0) ∧
        t.run[p] = { s.run[p] with
          phase := .settling, settleCount := count, lossCount := 0,
          released := if s.run[p].phase = .lost then false else s.run[p].released }) ∧
    (∀ (bits : BitVec 14) (counter : BitVec 16), s.run[p].phase = .vacant ∨ s.run[p].phase = .lost →
      ¬ WatchTrue s.configs[p] bits →
      ∃ t, handleInput p (.present bits counter) s = t ∧ t = { s with run := t.run } ∧ OthersKeep p s t ∧
        t.run[p] = { s.run[p] with
          phase := .settling, settleCount := 0, lossCount := 0,
          released := if s.run[p].phase = .lost then false else s.run[p].released }) ∧
    (∀ (bits : BitVec 14) (counter : BitVec 16) (urgent due : List Request),
      s.run[p].phase = .vacant ∨ s.run[p].phase = .lost → WatchTrue s.configs[p] bits → s.configs[p].settleCycles ≤ 1 →
      Unasked s p → QueueGroups s.sch.queue urgent due →
      ∃ t, handleInput p (.present bits counter) s = t ∧ OthersKeep p s t ∧
        t = { s with run := t.run, sch := { s.sch with queue := urgent ++ [{ position := p, kind := .ident }] ++ due } } ∧
        t.run[p] = { s.run[p] with
          phase := .identifying, settleCount := 0, lossCount := 0, strokes := 0, prevStroke := counter,
          pendingRequest := some .ident, released := if s.run[p].phase = .lost then false else s.run[p].released }) ∧
    (s.run[p].phase = .vacant ∨ s.run[p].phase = .lost →
      ∃ t, handleInput p .absent s = t ∧ t = { s with run := t.run } ∧ OthersKeep p s t ∧
        t.run[p] = if s.run[p].phase = .vacant then { s.run[p] with lossCount := 0 }
          else { s.run[p] with phase := .vacant, released := false }) ∧
    (s.run[p].phase = .vacant →
      ∃ t, handleInput p .missing s = t ∧ t = { s with run := t.run } ∧ OthersKeep p s t ∧
        t.run[p] = if s.run[p].lossCount + 1 < s.mgt.setup.lostCycles
          then { s.run[p] with lossCount := s.run[p].lossCount + 1 }
          else { s.run[p] with phase := .lost, lossCount := 0 })

/-- SETTLING_COMPLETE and LOSS_PROCESSING, the events of one position (LOG 4). The first makes the position IDENTIFYING, counts
from this input's counter on, and queues an IDENT request behind the IDENT and NEW entries (R10, R56, R57). The second loses
a seated or settling part as R15 says, and makes a VACANT position LOST without processing (R8, R11, R15). Each does nothing
where it is not due. -/
def Obligations.OnePositionEventsActWhenDue : Prop :=
  (∀ (s : State) (p : Pos) (counter : BitVec 16), s.live = true →
    (∀ urgent due : List Request, s.device = .running → s.run[p].phase = .settling →
      s.configs[p].settleCycles ≤ s.run[p].settleCount + 1 → Unasked s p → QueueGroups s.sch.queue urgent due →
      ∃ t, exec (.settlingComplete p counter) s = .next t ∧ OthersKeep p s t ∧
        t = { s with run := t.run, sch := { s.sch with queue := urgent ++ [{ position := p, kind := .ident }] ++ due } } ∧
        t.run[p] = { s.run[p] with phase := .identifying, settleCount := 0, lossCount := 0, strokes := 0,
                                   prevStroke := counter, pendingRequest := some .ident }) ∧
    (s.device = .starting ∨ s.run[p].phase ≠ .settling ∨ s.run[p].settleCount + 1 < s.configs[p].settleCycles →
      exec (.settlingComplete p counter) s = .next s)) ∧
  (∀ (s : State) (p : Pos), s.live = true →
    (s.device = .running → s.mgt.setup.lostCycles ≤ s.run[p].lossCount + 1 →
      s.run[p].phase = .settling ∨ s.run[p].phase = .identifying ∨ s.run[p].phase = .challenging ∨
        s.run[p].phase = .held →
      ∃ t, exec (.lossProcessing p) s = .next t ∧ PartRemoved p .lost .lost s t) ∧
    (s.device = .running → s.mgt.setup.lostCycles ≤ s.run[p].lossCount + 1 → s.run[p].phase = .vacant →
      ∃ t, exec (.lossProcessing p) s = .next t ∧ t = { s with run := t.run } ∧ OthersKeep p s t ∧
        t.run[p] = { s.run[p] with phase := .lost, lossCount := 0 }) ∧
    (s.device = .starting ∨ s.run[p].lossCount + 1 < s.mgt.setup.lostCycles ∨ s.run[p].phase = .disabled ∨
        s.run[p].phase = .lost →
      exec (.lossProcessing p) s = .next s))

/-- STILL_TIMEOUT: when the still timer of a CYCLING line has reached still_timeout, the line is STILL, the gap closes, the
expectation becomes none, and a staged set that is not held is applied to that state (R140, R165; the application itself is
ApplicationReactsToOneItem). The event put while the timer has not reached it does nothing (the model's choice, LOG 3). -/
def Obligations.StillTimeoutStopsTheLine : Prop :=
  ∀ s : State, s.live = true →
    (∀ n, s.fwd.lineState = .cycling → s.fwd.stillTimer = some n → s.mgt.setup.stillTimeout ≤ n →
      ∃ t, exec .stillTimeout s = .next t ∧
        t.fwd = { s.fwd with lineState := .still, gap := none, expectation := none } ∧ t.kst = s.kst ∧
        (s.mgt.edits = [] ∨ s.mgt.hold = true → t = { s with fwd := t.fwd }) ∧
        (s.mgt.edits ≠ [] → s.mgt.hold = false → t = applyEvent { s with fwd := t.fwd } ∧ t.mgt.edits = [])) ∧
    (s.fwd.lineState = .still ∨ s.fwd.stillTimer = none ∨
        (∃ n, s.fwd.stillTimer = some n ∧ n < s.mgt.setup.stillTimeout) →
      exec .stillTimeout s = .next s)

/-! ### Port D and port U -/

/-- An opportunity of an open gap, or a turn while the line is STILL, goes to its owner or to the side not served last where
that side has work, to the other side where only that one has, and is not used where neither has (R65, R141 to R143).
While a cycle telegram waits for port D none is given (R136). That an opportunity which no gap offers and a turn while the line is
CYCLING leave the state as it is is the model's choice, LOG 3; that both events come with port D free is LOG 10. -/
def Obligations.OpportunitiesAndTurnsAreShared : Prop :=
  (∀ s : State, s.live = true → s.fwd.dWaiting = none →
    (∀ g : Gap, s.fwd.gap = some g → s.fwd.lineState = .cycling → g.used < g.slots →
      (∀ (m : Bytes) (rest : List Bytes), s.fwd.masterQueue = m :: rest →
        g.used + 1 + g.verifierSlots ≤ g.slots ∨ s.device = .starting ∨ choose s = none →
        exec .gapOpportunity s = .next { s with fwd := { s.fwd with
          gap := some { g with used := g.used + 1 }, masterQueue := rest, lastServed := .master, dSending := some m } }) ∧
      (∀ c : Choice, s.device = .running → choose s = some c →
        g.slots < g.used + 1 + g.verifierSlots ∨ s.fwd.masterQueue = [] →
        exec .gapOpportunity s = .next (fill c { s with fwd := { s.fwd with
          gap := some { g with used := g.used + 1 }, lastServed := .verifier } })) ∧
      (s.fwd.masterQueue = [] → s.device = .starting ∨ choose s = none → exec .gapOpportunity s = .next s)) ∧
    (s.fwd.gap = none ∨ s.fwd.lineState = .still ∨ (∃ g, s.fwd.gap = some g ∧ g.slots ≤ g.used) →
      exec .gapOpportunity s = .next s) ∧
    (s.fwd.lineState = .still →
      (∀ (m : Bytes) (rest : List Bytes), s.fwd.masterQueue = m :: rest →
        s.fwd.lastServed = .verifier ∨ s.device = .starting ∨ choose s = none →
        exec .stillTurn s = .next { s with fwd := { s.fwd with
          masterQueue := rest, lastServed := .master, dSending := some m } }) ∧
      (∀ c : Choice, s.device = .running → choose s = some c → s.fwd.lastServed = .master ∨ s.fwd.masterQueue = [] →
        exec .stillTurn s = .next (fill c { s with fwd := { s.fwd with lastServed := .verifier } })) ∧
      (s.fwd.masterQueue = [] → s.device = .starting ∨ choose s = none → exec .stillTurn s = .next s)) ∧
    (s.fwd.lineState = .cycling → exec .stillTurn s = .next s)) ∧
  (∀ s : State, s.fwd.dWaiting ≠ none → exec .gapOpportunity s = .next s ∧ exec .stillTurn s = .next s)

/-- Port U sends one telegram at a time in the order in which they became ready; when the sending of a return that opens
the gap is over, the gap opens with the opportunities of the Setup record, while the line is CYCLING (R141, R149, R169; that
it opens at the end of that sending is LOG 11, and that it starts anew where a gap is open is the model's choice, LOG 26). The cycle telegram that waits for port D is sent when the sending under way
ends, and sets the return expectation (R135, R136). That CYCLE_TELEGRAM_SEND itself ends the sending under way is the model's
choice, LOG 10; that it leaves the state as it is where no cycle telegram waits is the model's choice, LOG 3. -/
def Obligations.PortsSendWhatWaits : Prop :=
  (∀ s : State, s.live = true →
    exec .portUTransmit s = .next { s with fwd := { s.fwd with
      uSending := s.fwd.uReady.head?, uReady := s.fwd.uReady.tail,
      gap := if s.fwd.lineState = .cycling ∧ s.fwd.uSending.any (fun u => u.opensGap) = true
        then some { used := 0, slots := s.mgt.setup.gapSlots, verifierSlots := s.mgt.setup.verifierSlots }
        else s.fwd.gap } }) ∧
  (∀ s : State, s.live = true →
    (∀ w, s.fwd.dWaiting = some w → exec .cycleTelegramSend s =
      .next { s with fwd := { s.fwd with dSending := some w.bytes, dWaiting := none, expectation := some w.expectation } }) ∧
    (s.fwd.dWaiting = none → exec .cycleTelegramSend s = .next s))

/-- The routes of port U for an undamaged telegram: a reply, or a telegram that claims to come from the verifier, is
discarded; a request to node 0 reaches MGT; a TAG-WRITE to a node is answered BLOCKED; any other request to a node joins the
master service queue while that holds fewer than 4, and is answered SEGMENT-BUSY otherwise (R145, R147). -/
def Obligations.MasterRequestsAreRouted : Prop :=
  ∀ (s : State) (node origin tag code : Byte) (body : Bytes), s.live = true → ServiceTests (0x03 :: body) →
    body.take 4 = [node, origin, tag, code] →
    (0x80 ≤ code ∨ origin = 0x01 → exec (.masterNodeRequest body) s = .next s) ∧
    (code < 0x80 → origin = 0x00 → node = 0 →
      exec (.masterNodeRequest body) s = .next (takeRequest code tag ((body.drop 5).take (body.length - 7)) s)) ∧
    (code = 0x03 → origin = 0x00 → node ≠ 0 → ∃ t, exec (.masterNodeRequest body) s = .next t ∧
      SendsUp s t { bytes := serviceTelegram node 0x00 tag 0xA0 [], opensGap := false }) ∧
    (code < 0x80 → origin = 0x00 → node ≠ 0 → code ≠ 0x03 → s.fwd.masterQueue.length < 4 →
      exec (.masterNodeRequest body) s =
        .next { s with fwd := { s.fwd with masterQueue := s.fwd.masterQueue ++ [0x03 :: body] } }) ∧
    (code < 0x80 → origin = 0x00 → node ≠ 0 → code ≠ 0x03 → 4 ≤ s.fwd.masterQueue.length →
      ∃ t, exec (.masterNodeRequest body) s = .next t ∧
        SendsUp s t { bytes := serviceTelegram node 0x00 tag 0xA1 [], opensGap := false })

/-- A TAG-WRITE to a node is answered BLOCKED, whatever the master service queue holds, and does nothing else; one to node 0
is refused as an unknown request (R146). -/
def Obligations.TagWriteIsBlocked : Prop :=
  ∀ (s : State) (node : Byte) (f : Frame), s.live = true → ServiceTests (f.telegram node 0x00 0x03) →
    (node ≠ 0 → ∃ t, exec (.tagWrite node f) s = .next t ∧
      SendsUp s t { bytes := serviceTelegram node 0x00 f.tag 0xA0 [], opensGap := false }) ∧
    (node = 0 → ∃ t, exec (.tagWrite node f) s = .next t ∧ Refuses s t f.tag 7)

/-- The routes of port D for an undamaged telegram: a request, or a reply from node 0, is discarded; a reply with origin
MASTER is forwarded on port U byte for byte; a reply with origin VERIFIER is handed to the scheduler (R148). -/
def Obligations.NodeRepliesAreRouted : Prop :=
  ∀ (s : State) (node origin tag code : Byte) (body : Bytes), s.live = true → ServiceTests (0x03 :: body) →
    body.take 4 = [node, origin, tag, code] →
    (code < 0x80 ∨ node = 0 → exec (.nodeReplyForward body) s = .next s) ∧
    (0x80 ≤ code → node ≠ 0 → origin = 0x00 → ∃ t, exec (.nodeReplyForward body) s = .next t ∧
      SendsUp s t { bytes := 0x03 :: body, opensGap := false }) ∧
    (0x80 ≤ code → node ≠ 0 → origin = 0x01 → exec (.nodeReplyForward body) s =
      .next (takeReply { node, tag, code, payload := (body.drop 5).take (body.length - 7) } s))

/-! ### The challenge scheduler -/

/-- The choice of R64: a resend in the order of waiting, then, with a record free, a continuation of the lowest position,
then the first queue entry that may be issued, then the sweep from its cursor on; with no record free only a resend
(R59, R64, R66, R67). -/
def Obligations.SchedulerChoosesInOrder : Prop :=
  ∀ s : State,
    (∀ (i : RecNo) (n : Nat), Resending s i n → (∀ j m, Resending s j m → j ≠ i → n < m) → choose s = some (.resend i)) ∧
    ((∀ i n, ¬ Resending s i n) →
      ((∀ i : RecNo, s.sch.records[i] ≠ none) → choose s = none) ∧
      ((∃ i : RecNo, s.sch.records[i] = none) →
        (∀ p, EpochReady s → Continues s p → (∀ q : Pos, q.val < p.val → ¬ Continues s q) →
          choose s = some (.continuation p)) ∧
        (¬ EpochReady s ∨ (∀ p, ¬ Continues s p) →
          (∀ (l : List Request) (e : Request) (r : List Request), s.sch.queue = l ++ e :: r → (∀ x ∈ l, ¬ MayIssue s x) →
            MayIssue s e → choose s = some (.queued e)) ∧
          ((∀ x ∈ s.sch.queue, ¬ MayIssue s x) →
            (∀ p, MaySweep s p → (∀ q, SweptBefore s.sch.cursor q p → ¬ MaySweep s q) →
              (s.run[p].identity = none → choose s = some (.sweepIdent p)) ∧
              (s.run[p].identity ≠ none → choose s = some (.sweepRound p))) ∧
            ((∀ p, ¬ MaySweep s p) → choose s = none)))))

/-- The issue of a transaction fills a free record and sends its query; a challenge takes the next nonce and captures the
class's key slot; a round starts at its first challenge with the class's repeat challenges left to come (R58, R62, R63,
R66, R68, R88, R89). A resend sends the same query again with the same tag and nonce, raises the attempt and sets a new
deadline; it touches nothing else (R75). -/
def Obligations.IssueFillsARecord : Prop :=
  (∀ s : State, (∃ i : RecNo, s.sch.records[i] = none) →
    (∀ (e : Request) (cls : ClassEntry), e.kind ≠ .ident → classOf s s.run[e.position] = some cls →
      ∃ t, fill (.queued e) s = t ∧
        QuerySent e.position (.challenge (s.kst.epoch ++ s.sch.nonceCounter) cls.keySlot) 0x02
          (be 8 (s.kst.epoch ++ s.sch.nonceCounter).toNat) s t ∧ NonceTaken s t ∧
        t.run[e.position] = { s.run[e.position] with
          phase := .challenging, sweepAge := 0, remaining := cls.repeatCount, pendingRequest := none } ∧
        OthersKeep e.position s t ∧ t.sch.queue = s.sch.queue.filter (fun x => x.position ≠ e.position) ∧
        t.sch.cursor = s.sch.cursor ∧ t = { s with run := t.run, sch := t.sch, fwd := t.fwd, kst := t.kst }) ∧
    (∀ (p : Pos) (cls : ClassEntry), classOf s s.run[p] = some cls →
      ∃ t u, fill (.continuation p) s = t ∧ fill (.sweepRound p) s = u ∧
        QuerySent p (.challenge (s.kst.epoch ++ s.sch.nonceCounter) cls.keySlot) 0x02
          (be 8 (s.kst.epoch ++ s.sch.nonceCounter).toNat) s t ∧ NonceTaken s t ∧
        t.run[p] = { s.run[p] with remaining := s.run[p].remaining - 1 } ∧ OthersKeep p s t ∧
        t.sch.queue = s.sch.queue ∧ t.sch.cursor = s.sch.cursor ∧
        t = { s with run := t.run, sch := t.sch, fwd := t.fwd, kst := t.kst } ∧
        QuerySent p (.challenge (s.kst.epoch ++ s.sch.nonceCounter) cls.keySlot) 0x02
          (be 8 (s.kst.epoch ++ s.sch.nonceCounter).toNat) s u ∧ NonceTaken s u ∧
        u.run[p] = { s.run[p] with
          phase := .challenging, sweepAge := 0, remaining := cls.repeatCount, roundKind := .sweep } ∧
        OthersKeep p s u ∧ u.sch.queue = s.sch.queue ∧ u.sch.cursor.val = (p.val + 1) % 48 ∧
        u = { s with run := u.run, sch := u.sch, fwd := u.fwd, kst := u.kst }) ∧
    (∀ p : Pos,
      ∃ t u, fill (.queued { position := p, kind := .ident }) s = t ∧ fill (.sweepIdent p) s = u ∧
        QuerySent p .ident 0x01 [] s t ∧ t.sch.nonceCounter = s.sch.nonceCounter ∧
        t.run[p] = { s.run[p] with pendingRequest := none } ∧ OthersKeep p s t ∧
        t.sch.queue = s.sch.queue.filter (fun x => x.position ≠ p) ∧ t.sch.cursor = s.sch.cursor ∧
        t = { s with run := t.run, sch := t.sch, fwd := t.fwd } ∧
        QuerySent p .ident 0x01 [] s u ∧ u.sch.nonceCounter = s.sch.nonceCounter ∧
        u.run[p] = { s.run[p] with phase := .identifying, sweepAge := 0 } ∧ OthersKeep p s u ∧
        u.sch.queue = s.sch.queue ∧ u.sch.cursor.val = (p.val + 1) % 48 ∧
        u = { s with run := u.run, sch := u.sch, fwd := u.fwd })) ∧
  (∀ (s : State) (i : RecNo) (r : Record), s.sch.records[i] = some r →
    ∃ t bytes, fill (.resend i) s = t ∧
      t = { s with
        fwd := { s.fwd with dSending := some bytes },
        sch := { s.sch with records := s.sch.records.set i.val (some { r with
          attempt := r.attempt + 1, deadline := s.now + s.mgt.setup.answerTimeout, state := .issued }) i.isLt } } ∧
      (r.query = .ident → bytes =
        serviceTelegram (BitVec.ofNat 8 (r.position.val + 1)) 0x01 (BitVec.ofNat 8 r.tag) 0x01 []) ∧
      (∀ nonce slot, r.query = .challenge nonce slot → bytes =
        serviceTelegram (BitVec.ofNat 8 (r.position.val + 1)) 0x01 (BitVec.ofNat 8 r.tag) 0x02 (be 8 nonce.toNat)))

/-! ### Verifier replies -/

/-- A verifier reply that matches no record is discarded; one that matches a record in AWAITING-KEY, or a NO-TAG for one in
RESEND-WAITING, is discarded too (R69, R71, R74). A telegram of a kind that its port does not take is discarded without
answer or attention flag: port U takes kinds 1 and 3, port D takes kinds 2 and 3 (R131). -/
def Obligations.DiscardedTelegramsChangeNothing : Prop :=
  (∀ (s : State) (node : Byte) (f : Frame),
    ((∀ (i : RecNo) (r : Record), s.sch.records[i] = some r → r.query = .ident → f.tag.toNat = r.tag →
        node.toNat = r.position.val + 1 → f.payload.length ≠ 11) →
      exec (.ident node f) s = .next s) ∧
    ((∀ (i : RecNo) (r : Record) (nonce : Nonce) (slot : SlotNo), s.sch.records[i] = some r →
        r.query = .challenge nonce slot → f.tag.toNat = r.tag → node.toNat = r.position.val + 1 →
        f.payload.length ≠ 16 ∨ f.payload.take 8 ≠ be 8 nonce.toNat) →
      exec (.answer node f) s = .next s) ∧
    ((∀ (i : RecNo) (r : Record), s.sch.records[i] = some r → f.tag.toNat = r.tag → node.toNat = r.position.val + 1 →
        f.payload ≠ []) →
      exec (.noTag node f) s = .next s) ∧
    (RecordsDistinct s → ∀ (i : RecNo) (r : Record), s.sch.records[i] = some r → f.tag.toNat = r.tag →
      ((∃ n, AwaitingKey s i n) → exec (.ident node f) s = .next s ∧ exec (.answer node f) s = .next s) ∧
      (r.state ≠ .issued → exec (.noTag node f) s = .next s))) ∧
  (∀ (s : State) (kind : Byte) (body : Bytes),
    (kind ≠ 0x01 → kind ≠ 0x03 → exec (.telegramWrongKind .u (kind :: body)) s = .next s) ∧
    (kind ≠ 0x02 → kind ≠ 0x03 → exec (.telegramWrongKind .d (kind :: body)) s = .next s))

/-- An identified part of a known class that is not revoked and that no other position holds: its record is freed, it joins
its sighting entry, its score is 0 and its verdict UNDECIDED without a notice, and a NEW round is called for behind the
IDENT and NEW entries (R17, R19, R56, R57, R70, R93). -/
def Obligations.KnownPartStartsARound : Prop :=
  ∀ (s : State) (node : Byte) (f : Frame) (i : RecNo) (rec : Record) (id : Identity) (c : ClassIdx)
    (urgent due : List Request),
    Identifies s node f i rec id → ClassAt s id.cls c → (∀ e ∈ s.revocations, ¬ Revokes e id) →
    QueueGroups s.sch.queue urgent due →
    ∃ t, exec (.ident node f) s = .next t ∧
      t.run[rec.position] = { s.run[rec.position] with
        identity := some id, classIndex := some c, score := 0, verdict := .undecided, reason := none, phase := .challenging,
        sweepAge := 0, pendingRequest := some .new, roundKind := .new } ∧
      OthersKeep rec.position s t ∧ Sighted rec.position id s.sightings t.sightings ∧
      t = { s with
        run := t.run, sightings := t.sightings,
        sch := { s.sch with records := s.sch.records.set i.val none i.isLt,
                            queue := urgent ++ [{ position := rec.position, kind := .new }] ++ due } }

/-- An identified part that the revocation list matches is forced to REVOKED with the latch (R18, R46, R106); one of a class
that the Class Table does not hold stays UNDECIDED without a class (R19; that its score is set to 0 is LOG 18). Each is held
without a challenge, and a change of its verdict is reported. -/
def Obligations.HeldWithoutAChallenge : Prop :=
  (∀ (s : State) (node : Byte) (f : Frame) (i : RecNo) (rec : Record) (id : Identity),
    Identifies s node f i rec id → (∃ e ∈ s.revocations, Revokes e id) →
    ∃ t, exec (.ident node f) s = .next t ∧
      (∀ c, t.run[rec.position].classIndex = some c → ClassAt s id.cls c) ∧
      (t.run[rec.position].classIndex = none → ∀ c, ¬ ClassAt s id.cls c) ∧
      t.run[rec.position] = { s.run[rec.position] with
        identity := some id, classIndex := t.run[rec.position].classIndex, verdict := .revoked, latch := true,
        reason := some .revoked, phase := .held } ∧
      OthersKeep rec.position s t ∧ Sighted rec.position id s.sightings t.sightings ∧
      VerdictReported s t rec.position s.run[rec.position].verdict .revoked .revoked (some id) s.run[rec.position].score ∧
      t.sch = { s.sch with records := s.sch.records.set i.val none i.isLt } ∧ OnlyPositionWork s t) ∧
  (∀ (s : State) (node : Byte) (f : Frame) (i : RecNo) (rec : Record) (id : Identity),
    Identifies s node f i rec id → (∀ c, ¬ ClassAt s id.cls c) → (∀ e ∈ s.revocations, ¬ Revokes e id) →
    ∃ t, exec (.ident node f) s = .next t ∧
      t.run[rec.position] = { s.run[rec.position] with
        identity := some id, classIndex := none, score := 0, verdict := .undecided, reason := some .classUnknown,
        phase := .held } ∧
      OthersKeep rec.position s t ∧ Sighted rec.position id s.sightings t.sightings ∧
      VerdictReported s t rec.position s.run[rec.position].verdict .undecided .classUnknown (some id) 0 ∧
      t.sch = { s.sch with records := s.sch.records.set i.val none i.isLt } ∧ OnlyPositionWork s t)

/-- A part seen while other positions hold it is a DUPLICATE on both sides (R19, R29, R35, R93, R96): each earlier holder with
a class takes its own class's w_dup, in the order of the holders list, with its notice and its DUE request (R47, R52). Then the
joiner: revoked it takes none of its own and is forced to REVOKED (R18); of an unknown class it takes none and is held
UNDECIDED (R19; that its score is 0 is LOG 18); of a known class it starts from 0 with its class's w_dup and a NEW request. -/
def Obligations.DuplicateChargesBothSides : Prop :=
  ∀ (s : State) (node : Byte) (f : Frame) (i : RecNo) (rec : Record) (id : Identity) (a : List Sighting) (x : Sighting)
    (b : List Sighting) (p : Pos), FindsHolders s node f i rec id a x b → p = rec.position →
    ∃ (t : State) (due : List Request), exec (.ident node f) s = .next t ∧ HoldersCharged p a x b s t ∧
      DueCalls (earlierOf x p) s t due ∧ OnlyPositionWork s t ∧ t.sch.records = s.sch.records.set i.val none i.isLt ∧
      ((∃ e ∈ s.revocations, Revokes e id) →
        (∀ c, t.run[p].classIndex = some c → ClassAt s id.cls c) ∧ (t.run[p].classIndex = none → ∀ c, ¬ ClassAt s id.cls c) ∧
        t.run[p] = { s.run[p] with
          identity := some id, classIndex := t.run[p].classIndex, verdict := .revoked, latch := true,
          reason := some .revoked, phase := .held } ∧
        t.sch.queue = s.sch.queue ++ due ∧
        FindingNotices x p s t (if s.run[p].verdict = .revoked then [] else [joinerNotice s t p id .revoked])) ∧
      ((∀ e ∈ s.revocations, ¬ Revokes e id) → (∀ c, ¬ ClassAt s id.cls c) →
        t.run[p] = { s.run[p] with
          identity := some id, classIndex := none, score := 0, verdict := .undecided, reason := some .classUnknown,
          phase := .held } ∧
        t.sch.queue = s.sch.queue ++ due ∧
        FindingNotices x p s t (if s.run[p].verdict = .undecided then [] else [joinerNotice s t p id .classUnknown])) ∧
      (∀ (c : ClassIdx) (urgent rest : List Request), (∀ e ∈ s.revocations, ¬ Revokes e id) → ClassAt s id.cls c →
        QueueGroups s.sch.queue urgent rest →
        VerdictStep s.mgt.classes[c] false t.run[p].score .undecided t.run[p].verdict ∧
        t.run[p] = { s.run[p] with
          identity := some id, classIndex := some c, score := clampedScore 0 s.mgt.classes[c].wDup, decayCount := 0,
          verdict := t.run[p].verdict, reason := some .duplicate, phase := .challenging, sweepAge := 0,
          pendingRequest := t.run[p].pendingRequest, roundKind := t.run[p].roundKind } ∧
        ((∀ e ∈ s.sch.queue, e.position ≠ p) → t.run[p].pendingRequest = some .new ∧ t.run[p].roundKind = .new ∧
          t.sch.queue = urgent ++ [{ position := p, kind := .new }] ++ rest ++ due) ∧
        FindingNotices x p s t (if t.run[p].verdict = .undecided ∨ t.run[p].verdict = s.run[p].verdict then []
          else [joinerNotice s t p id .duplicate]))

/-- A passing answer at a seating's first pass: PASS alone, the odometer reference set, the odometer recorded and the wear
tested; below the sighting entry's odometer it is a ROLLBACK instead (R32, R37, R38, R41, R42, R99, R100). -/
def Obligations.FirstPassSetsTheReference : Prop :=
  ∀ (s : State) (node : Byte) (f : Frame) (i : RecNo) (rec : Record) (nonce : Nonce) (slot : SlotNo) (key : Key)
    (id : Identity) (e : ClassEntry) (odo : Word32),
    Verifies s node f i rec nonce slot key id e → f.payload = answerPayload nonce odo (responseWord key nonce id odo) →
    s.run[rec.position].odoRef = none →
    ((∀ x ∈ s.sightings, rec.position ∈ x.holders → ∀ l, x.lastOdo = some l → l ≤ odo) →
      ∃ t, exec (.answer node f) s = .next t ∧
        AnswerHandled s t i rec.position e (clampedScore s.run[rec.position].score e.wPass) .pass
          { s.run[rec.position] with
            odoRef := some { odo, strokes := s.run[rec.position].strokes }, lastOdo := some odo,
            worn := s.run[rec.position].worn || decide (e.lifeLimit ≠ 0 ∧ e.lifeLimit ≤ odo.toNat) } ∧
        OdometerRecorded rec.position odo s.sightings t.sightings) ∧
    (∀ (a : List Sighting) (x : Sighting) (b : List Sighting) (l : Word32), s.sightings = a ++ x :: b →
      (∀ y ∈ a, rec.position ∉ y.holders) → rec.position ∈ x.holders → x.lastOdo = some l → odo < l →
      ∃ t, exec (.answer node f) s = .next t ∧ CounterfeitForced s t i rec.position (-1000) .rollback)

/-- A later passing answer: PASS, then one of ODO-OK, LAG and AHEAD as the odometer stands to the strokes counted since the
reference, or ROLLBACK below the reference; the odometer is recorded and the wear tested unless it is a ROLLBACK (R29, R32,
R37, R39 to R42, R99). -/
def Obligations.LaterPassTestsTheOdometer : Prop :=
  ∀ (s : State) (node : Byte) (f : Frame) (i : RecNo) (rec : Record) (nonce : Nonce) (slot : SlotNo) (key : Key)
    (id : Identity) (e : ClassEntry) (odo : Word32) (ref : OdoRef) (n expected tol : Nat),
    Verifies s node f i rec nonce slot key id e → f.payload = answerPayload nonce odo (responseWord key nonce id odo) →
    s.run[rec.position].odoRef = some ref → n = s.run[rec.position].strokes - ref.strokes →
    expected = ref.odo.toNat + n → tol = e.odoTol + n * e.slack / 256 →
    ∃ t, exec (.answer node f) s = .next t ∧
      (odo < ref.odo → CounterfeitForced s t i rec.position (-1000) .rollback) ∧
      (∀ (w : Int) (reason : Reason), ref.odo ≤ odo →
        (odo.toNat + tol < expected ∧ reason = .lag ∧
            w = -(min (e.lagCap : Int) (((expected - odo.toNat - tol) * e.lagRate : Nat) : Int))) ∨
          (expected + tol < odo.toNat ∧ reason = .ahead ∧ w = e.wAhead) ∨
          (expected ≤ odo.toNat + tol ∧ odo.toNat ≤ expected + tol ∧ reason = .odoOk ∧ w = e.wOdoOk) →
        AnswerHandled s t i rec.position e (clampedScore (clampedScore s.run[rec.position].score e.wPass) w) reason
          { s.run[rec.position] with
            lastOdo := some odo,
            worn := s.run[rec.position].worn || decide (e.lifeLimit ≠ 0 ∧ e.lifeLimit ≤ odo.toNat) } ∧
        OdometerRecorded rec.position odo s.sightings t.sightings)

/-- An answer whose response word differs from the fold result: FAIL, and with the class's fail_latch COUNTERFEIT with the
latch; its odometer enters no record (R33, R37, R46). -/
def Obligations.WrongAnswerFails : Prop :=
  ∀ (s : State) (node : Byte) (f : Frame) (i : RecNo) (rec : Record) (nonce : Nonce) (slot : SlotNo) (key : Key)
    (id : Identity) (e : ClassEntry) (odo response : Word32),
    Verifies s node f i rec nonce slot key id e → f.payload = answerPayload nonce odo response →
    response ≠ responseWord key nonce id odo →
    ∃ t, exec (.answer node f) s = .next t ∧ t.sightings = s.sightings ∧
      (e.failLatch = false → AnswerHandled s t i rec.position e (clampedScore s.run[rec.position].score e.wFail) .fail
        s.run[rec.position]) ∧
      (e.failLatch = true → CounterfeitForced s t i rec.position (clampedScore s.run[rec.position].score e.wFail) .fail)

/-- An answer that arrives while KST is busy waits in its record behind those that wait; one whose captured slot holds no
key ends the round without evidence, sets key_missing and latches attention KEY-MISSING (R60, R71). -/
def Obligations.AnswerWithoutAKeyIsNotJudged : Prop :=
  ∀ (s : State) (node : Byte) (f : Frame) (i : RecNo) (rec : Record) (nonce : Nonce) (slot : SlotNo) (odo response : Word32),
    ReplyFor s node f 0x91 i rec → RecordsDistinct s → rec.query = .challenge nonce slot → rec.waits →
    f.payload = answerPayload nonce odo response →
    (s.kst.busy = true → ∃ n, (∀ j m, AwaitingKey s j m → m < n) ∧
      exec (.answer node f) s = .next { s with sch := { s.sch with
        records := s.sch.records.set i.val (some { rec with state := .awaitingKey odo response n }) i.isLt } }) ∧
    (s.kst.busy = false → s.kst.slots[slot] = .blank ∨ s.kst.slots[slot] = .faulty →
      ∃ t, exec (.answer node f) s = .next t ∧ OthersKeep rec.position s t ∧
        t.run[rec.position] = { s.run[rec.position] with keyMissing := true, remaining := 0, phase := .held } ∧
        t = { s with
          run := t.run, sch := { s.sch with records := s.sch.records.set i.val none i.isLt },
          mgt := { s.mgt with attention := { s.mgt.attention with keyMissing := true } } })

/-- A NO-TAG for a record in ISSUED, and the deadline of one, are its expiry (R20, R34, R73, R74); before the deadline, and
in the other states, DEADLINE_EXPIRY does nothing (R61; LOG 3). -/
def Obligations.NoTagAndDeadlineExpire : Prop :=
  ∀ (s : State) (i : RecNo) (rec : Record), s.live = true → s.sch.records[i] = some rec →
    (RecordsDistinct s → rec.state = .issued →
      (∀ (node : Byte) (f : Frame), ReplyFor s node f 0x92 i rec → f.payload = [] →
        ∃ t, exec (.noTag node f) s = .next t ∧ Expired s t i rec) ∧
      (rec.deadline ≤ s.now → ∃ t, exec (.deadlineExpiry i) s = .next t ∧ Expired s t i rec)) ∧
    (rec.state ≠ .issued ∨ s.now < rec.deadline → exec (.deadlineExpiry i) s = .next s)

/-- The evaluation of a verdict: the thresholds of R44 with their hysteresis, the latch of R45, one notice for a change, and
a DUE request where the verdict of a HELD position falls (R44, R45, R47). -/
def Obligations.VerdictFollowsThresholds : Prop :=
  ∀ (s : State) (p : Pos) (reason : Reason) (e : ClassEntry), classOf s s.run[p] = some e →
    ∃ t, evaluate p reason s = t ∧
      VerdictStep e s.run[p].latch s.run[p].score s.run[p].verdict t.run[p].verdict ∧
      VerdictReported s t p s.run[p].verdict t.run[p].verdict reason s.run[p].identity s.run[p].score ∧
      OthersKeep p s t ∧ OnlyPositionWork s t ∧ (t.run[p].verdict = s.run[p].verdict → t = s) ∧
      (t.run[p].verdict ≠ s.run[p].verdict →
        (s.run[p].phase = .held → t.run[p].verdict = .undecided ∨ s.run[p].verdict = .genuine →
          s.run[p].pendingRequest = none → Unasked s p →
          t.sch = { s.sch with queue := s.sch.queue ++ [{ position := p, kind := .due }] } ∧
          t.run[p] = { s.run[p] with
            verdict := t.run[p].verdict, reason := some reason, phase := .challenging, sweepAge := 0,
            pendingRequest := some .due, roundKind := .due }) ∧
        (s.run[p].phase ≠ .held ∨ (t.run[p].verdict ≠ .undecided ∧ s.run[p].verdict ≠ .genuine) →
          t.sch = s.sch ∧ t.run[p] = { s.run[p] with verdict := t.run[p].verdict, reason := some reason }))

/-! ### Management requests -/

/-- READ-ENTRIES: the sizes, numbers of entries and most entries per reply of the eight tables, the count given, and the
refusals; a read of DEVICE sets the reset cause to NONE and nothing else changes (08, Tables; R155 to R157, R198). The entries
of the tables show their contents in the layouts of 08, for contents within their ranges (R53, R87, R101, R113, R153, R157). -/
def Obligations.ReadEntriesAnswersFromTheTables : Prop :=
  (∀ s : State,
    (∀ p : Pos, RuntimeFits s.run[p] → ShowsRuntime (entryBytes s .positionState p.val) s.run[p]) ∧
    (∀ p : Pos, ConfigFits 8 s.configs[p] → ShowsConfig (entryBytes s .positionConfig p.val) s.configs[p]) ∧
    (∀ i : ClassIdx, ClassFits s.mgt.classes[i] ∨ s.mgt.classes[i] = ClassEntry.empty →
      ShowsClass (entryBytes s .cls i.val) s.mgt.classes[i]) ∧
    (∀ i : Nat, ShowsSighting (entryBytes s .sighting i) s.sightings[i]?) ∧
    (∀ i : Nat, ShowsRevocation (entryBytes s .revocation i) s.revocations[i]?) ∧
    (SetupFits s.mgt.setup → ShowsSetup (entryBytes s .setup 0) s.mgt.setup) ∧
    ShowsKeyStatus (entryBytes s .keyStatus 0) s.kst ∧
    (s.kst.boundary ≤ 16 → ShowsDevice (entryBytes s .device 0) s.mgt.resetCause s.kst)) ∧
  ∀ (s : State) (f : Frame) (code : Byte) (first : BitVec 16) (count : Byte),
    (Arrives s f 0x40 → f.payload.length ≠ 4 → ∃ t, exec (.readEntries f) s = .next t ∧ Refuses s t f.tag 1) ∧
    (Asks s f 0x40 ([code] ++ be 2 first.toNat ++ [count]) →
      (code = 0 ∨ 8 < code.toNat → ∃ t, exec (.readEntries f) s = .next t ∧ Refuses s t f.tag 1) ∧
      (∀ (k size entries most : Nat) (table : Table),
        (k, size, entries, most) ∈ [(1, 8, 48, 30), (2, 32, 48, 7), (3, 48, 32, 5), (4, 24, 128, 10), (5, 12, 512, 20),
          (6, 16, 1, 1), (7, 80, 1, 1), (8, 16, 1, 1)] → code.toNat = k → tableOf k = some table →
        (∀ i : Nat, i < entries → (entryBytes s table i).length = size) ∧
        (entries ≤ first.toNat → ∃ t, exec (.readEntries f) s = .next t ∧ Refuses s t f.tag 1) ∧
        (first.toNat < entries → k = 7 → s.kst.busy = true →
          ∃ t, exec (.readEntries f) s = .next t ∧ Refuses s t f.tag 4) ∧
        (first.toNat < entries → k ≠ 7 ∨ s.kst.busy = false → ∀ given : Nat,
          given = min count.toNat (min most (entries - first.toNat)) →
          ∃ t, exec (.readEntries f) s = .next t ∧
            Answers (if k = 8 ∧ given ≠ 0 then { s with mgt := { s.mgt with resetCause := .none } } else s) t f.tag 0x80
              ((List.range given).flatMap (fun j => entryBytes s table (first.toNat + j))))))

/-- A POSITION-CONFIG write of entries within the ranges is staged and echoes the active entries: its items replace those of the
same position in place and join the tail otherwise, in index order. It is refused FULL where the set cannot take the items that
replace none (R160, R161, R163 to R165). -/
def Obligations.ConfigWriteIsStaged : Prop :=
  ∀ (s : State) (f : Frame) (first : Nat) (cs : List PosConfig) (items : List EditItem), cs ≠ [] → first + cs.length ≤ 48 →
    Asks s f 0x41 ([0x01] ++ be 2 first ++ be 1 cs.length ++ cs.flatMap encodeConfig) →
    (∀ c ∈ cs, ConfigFits (SlotSizeOf s.fwd.framing) c) → items.length = cs.length →
    (∀ (k : Nat) (p : Pos) (c : PosConfig), p.val = first + k → cs[k]? = some c → items[k]? = some (.config p c)) →
    ∃ t, exec (.writeEntries f) s = .next t ∧
      (s.mgt.edits.length + (joining s.mgt.edits items).length ≤ 64 →
        WriteStaged s t f.tag ((List.range cs.length).flatMap (fun k => entryBytes s .positionConfig (first + k))) items) ∧
      (64 < s.mgt.edits.length + (joining s.mgt.edits items).length → Refuses s t f.tag 3)

/-- A CLASS write of entries within the ranges is staged as a POSITION-CONFIG write is; it is refused DUPLICATE where two entries
of the table it would leave carry one code, and then FULL where the set cannot take the items that replace none (R159, R160,
R162 to R165). -/
def Obligations.ClassWriteIsStaged : Prop :=
  ∀ (s : State) (f : Frame) (first : Nat) (es : List ClassEntry) (items : List EditItem) (left : Vector ClassEntry 32),
    es ≠ [] → first + es.length ≤ 32 →
    Asks s f 0x41 ([0x03] ++ be 2 first ++ be 1 es.length ++ es.flatMap encodeClass) →
    (∀ e ∈ es, ClassFits e ∨ e = ClassEntry.empty) → items.length = es.length →
    (∀ (k : Nat) (c : ClassIdx) (e : ClassEntry), c.val = first + k → es[k]? = some e → items[k]? = some (.cls c e)) →
    (∀ c : ClassIdx, ∀ e, (∃ k, es[k]? = some e ∧ c.val = first + k) → left[c] = e) →
    (∀ c : ClassIdx, c.val < first ∨ first + es.length ≤ c.val →
      (∀ e, .cls c e ∈ s.mgt.edits → left[c] = e) ∧
      ((∀ e, .cls c e ∉ s.mgt.edits) → left[c] = s.mgt.classes[c])) →
    (∀ c e e', .cls c e ∈ s.mgt.edits → .cls c e' ∈ s.mgt.edits → e = e') →
    ∃ t, exec (.writeEntries f) s = .next t ∧
      ((∃ i j : ClassIdx, i ≠ j ∧ left[i].code ≠ 0 ∧ left[i].code = left[j].code) → Refuses s t f.tag 2) ∧
      ((∀ i j : ClassIdx, i ≠ j → left[i].code ≠ 0 → left[i].code ≠ left[j].code) →
        (s.mgt.edits.length + (joining s.mgt.edits items).length ≤ 64 →
          WriteStaged s t f.tag ((List.range es.length).flatMap (fun k => entryBytes s .cls (first + k))) items) ∧
        (64 < s.mgt.edits.length + (joining s.mgt.edits items).length → Refuses s t f.tag 3))

/-- A write that names no writable table, counts no entry, has the wrong length, reaches beyond the table or holds an entry
that fails one of the tests of R159 (CLASS), R161 (POSITION-CONFIG) or R169 (SETUP, with the lock clear) is refused RANGE and
changes nothing, and so is one shorter than its 4 header bytes (R154, R160). A request to node 0 whose code names no management
request is refused UNKNOWN (R154). -/
def Obligations.UnfitRequestsAreRefused : Prop :=
  (∀ (s : State) (f : Frame) (code : Byte) (first : BitVec 16) (count : Byte) (rest : Bytes), Arrives s f 0x41 →
    f.payload = [code] ++ be 2 first.toNat ++ [count] ++ rest →
    ((code ≠ 1 ∧ code ≠ 3 ∧ code ≠ 6) ∨
      (∃ k size entries : Nat, (k, size, entries) ∈ [(1, 8, 48), (3, 48, 32), (6, 16, 1)] ∧ code.toNat = k ∧
        (count = 0 ∨ rest.length ≠ count.toNat * size ∨ entries < first.toNat + count.toNat)) ∨
      (code = 1 ∧ ∃ j < count.toNat, UnfitConfig (SlotSizeOf s.fwd.framing) ((rest.drop (8 * j)).take 8)) ∨
      (code = 3 ∧ ∃ j < count.toNat, UnfitClass ((rest.drop (48 * j)).take 48)) ∨
      (code = 6 ∧ s.mgt.setupLock = false ∧ UnfitSetup rest) →
    ∃ t, exec (.writeEntries f) s = .next t ∧ Refuses s t f.tag 1)) ∧
  (∀ (s : State) (f : Frame), Arrives s f 0x41 → f.payload.length < 4 →
    ∃ t, exec (.writeEntries f) s = .next t ∧ Refuses s t f.tag 1) ∧
  (∀ (s : State) (f : Frame) (code : Byte), Arrives s f code → code < 0x80 →
    code ∉ [0x40, 0x41, 0x42, 0x43, 0x44, 0x48, 0x49, 0x4A, 0x50, 0x51, 0x58, 0x59, 0x5A, 0x60, 0x61, 0x62, 0x70] →
    ∃ t, exec (.unknownRequest code f) s = .next t ∧ Refuses s t f.tag 7)

/-- The Setup record is written once: with the lock clear the record is replaced, the lock set, the positions follow
position_count, the reply echoes the record before, and the passage to RUNNING may follow; with the lock set it is refused
LOCKED (R6, R160, R168, R169, R196). -/
def Obligations.SetupIsWrittenOnce : Prop :=
  ∀ (s : State) (f : Frame) (p : Setup), Asks s f 0x41 ([0x06, 0x00, 0x00, 0x01] ++ encodeSetup p) →
    (s.mgt.setupLock = true → ∃ t, exec (.writeEntries f) s = .next t ∧ Refuses s t f.tag 5) ∧
    (s.mgt.setupLock = false → SetupFits p → ∃ t u, exec (.writeEntries f) s = .next t ∧
      Answers u t f.tag 0x80 (encodeSetup s.mgt.setup) ∧
      u = { s with
        run := u.run, mgt := { s.mgt with setup := p, setupLock := true },
        device := if s.device = .starting ∧ s.startCount = 8 then .running else s.device } ∧
      (∀ q : Pos, u.run[q] = { s.run[q] with
        phase := if p.positionCount < q.val + 1 then .disabled
          else if s.configs[q].enabled = true ∧ s.run[q].phase = .disabled then .vacant else s.run[q].phase }))

/-- HOLD sets the hold, DISCARD-STAGED empties the pending edit set, RELEASE-HOLD clears the hold and, while the line is
STILL, a waiting set is applied at once to the released and answered state (the application itself is
ApplicationReactsToOneItem); each is answered OK (R165, R167). -/
def Obligations.HoldReleaseAndDiscard : Prop :=
  ∀ (s : State) (f : Frame),
    (Arrives s f 0x42 → ∃ t, exec (.hold f) s = .next t ∧
      Answers { s with mgt := { s.mgt with hold := true } } t f.tag 0x80 []) ∧
    (Arrives s f 0x44 → ∃ t, exec (.discardStaged f) s = .next t ∧
      Answers { s with mgt := { s.mgt with edits := [] } } t f.tag 0x80 []) ∧
    (Arrives s f 0x43 → ∃ t, exec (.releaseHold f) s = .next t ∧ t.mgt.hold = false ∧
      portU t = portU s ++ [{ bytes := serviceTelegram 0x00 0x00 f.tag 0x80 [], opensGap := false }] ∧
      (s.fwd.lineState = .cycling ∨ s.mgt.edits = [] →
        Answers { s with mgt := { s.mgt with hold := false } } t f.tag 0x80 []) ∧
      (s.fwd.lineState = .still → ∃ u : State, Answers { s with mgt := { s.mgt with hold := false } } u f.tag 0x80 [] ∧
        t = applyEvent u ∧ t.mgt.edits = []))

/-- The application of the pending edit set takes the five steps of R166, each over all items in arrival order, with the
reactions of R4, the losses and gains of a class of R51, the re-evaluations of R50 and their notices in ascending order of
position; without a set, or under the hold, it changes nothing. A set that exchanges the codes of two entries gives every
unlatched part of both the other index, score 0 and a NEW round, and every latched part the other index alone. A
POSITION-CONFIG item alone replaces the configuration and POS reacts as R4 says; a CLASS item alone replaces the entry, takes
the class index from parts of another class, gives it to waiting parts of its class, re-evaluates its parts where other fields
changed, and touches no part where none has (R4, R16, R50, R51, R166). -/
def Obligations.ApplicationReactsToOneItem : Prop :=
  (∀ s : State, s.mgt.hold = true ∨ s.mgt.edits = [] → applyEvent s = s) ∧
  (∀ s : State, s.mgt.hold = false → s.mgt.edits ≠ [] → EditsOnce s.mgt.edits → AppliedInSteps s (applyEvent s)) ∧
  (∀ (s : State) (i j : ClassIdx) (e f : ClassEntry), s.mgt.hold = false → s.mgt.edits = [.cls i e, .cls j f] → i ≠ j →
    e.code = s.mgt.classes[j].code → f.code = s.mgt.classes[i].code → e.code ≠ f.code → e.code ≠ 0 → f.code ≠ 0 →
    ∀ p : Pos,
      (s.run[p].classIndex = some i → classCode s p = some f.code →
        (s.run[p].latch = false → (applyEvent s).run[p] = { s.run[p] with
          classIndex := some j, score := 0, verdict := .undecided, reason := some .classUnknown, phase := .challenging,
          sweepAge := 0, remaining := 0, pendingRequest := some .new, roundKind := .new }) ∧
        (s.run[p].latch = true → (applyEvent s).run[p] = { s.run[p] with
          classIndex := some j, pendingRequest := none, remaining := 0 })) ∧
      (s.run[p].classIndex = some j → classCode s p = some e.code →
        (s.run[p].latch = false → (applyEvent s).run[p] = { s.run[p] with
          classIndex := some i, score := 0, verdict := .undecided, reason := some .classUnknown, phase := .challenging,
          sweepAge := 0, remaining := 0, pendingRequest := some .new, roundKind := .new }) ∧
        (s.run[p].latch = true → (applyEvent s).run[p] = { s.run[p] with
          classIndex := some i, pendingRequest := none, remaining := 0 }))) ∧
  ∀ s : State, s.mgt.hold = false →
    (∀ (p : Pos) (c : PosConfig), s.mgt.edits = [.config p c] →
      ∃ t u, applyEvent s = t ∧ u = { s with configs := s.configs.set p.val c p.isLt } ∧ t.mgt.edits = [] ∧
        t.configs[p] = c ∧ (∀ q : Pos, q ≠ p → t.configs[q] = s.configs[q]) ∧ OthersKeep p s t ∧
        (s.configs[p].enabled = true → c.enabled = false → s.run[p].phase ≠ .disabled →
          ∃ v, t = { v with mgt := { v.mgt with edits := [] } } ∧ PartRemoved p .disabled .disabled u v) ∧
        (s.configs[p].enabled = false → c.enabled = true → p.val + 1 ≤ s.mgt.setup.positionCount →
          t.run[p] = Runtime.cleared .vacant) ∧
        (s.configs[p].enabled = c.enabled → s.run[p].phase = .settling →
          s.configs[p].settleCycles ≠ c.settleCycles ∨ s.configs[p].watchForm ≠ c.watchForm ∨
            s.configs[p].watchMask ≠ c.watchMask →
          t.run[p] = { s.run[p] with settleCount := 0 }) ∧
        (s.configs[p].enabled = c.enabled →
          s.run[p].phase ≠ .settling ∨ (s.configs[p].settleCycles = c.settleCycles ∧
            s.configs[p].watchForm = c.watchForm ∧ s.configs[p].watchMask = c.watchMask) →
          t.run[p] = s.run[p])) ∧
    (∀ (i : ClassIdx) (e : ClassEntry), s.mgt.edits = [.cls i e] →
      ∃ t, applyEvent s = t ∧ t.mgt.edits = [] ∧ t.mgt.classes[i] = e ∧ t.configs = s.configs ∧
        (∀ j : ClassIdx, j ≠ i → t.mgt.classes[j] = s.mgt.classes[j]) ∧
        (∀ (p : Pos) (code : Option Code), code = s.run[p].identity.map Identity.cls →
          (s.run[p].classIndex = some i → code ≠ some e.code → s.run[p].latch = false →
            t.run[p] = { s.run[p] with
              classIndex := none, verdict := .undecided, reason := some .classUnknown, phase := .held,
              pendingRequest := none, remaining := 0 } ∧ Unasked t p) ∧
          (s.run[p].classIndex = some i → code ≠ some e.code → s.run[p].latch = true →
            t.run[p] = { s.run[p] with classIndex := none, pendingRequest := none, remaining := 0 } ∧ Unasked t p) ∧
          (s.run[p].classIndex = some i → code = some e.code → s.mgt.classes[i] = e → t.run[p] = s.run[p]) ∧
          (s.run[p].classIndex = none → code = some e.code → e.code ≠ 0 → s.run[p].latch = false →
            t.run[p].classIndex = some i ∧ t.run[p].score = 0 ∧ t.run[p].phase = .challenging ∧
            (Unasked s p → t.run[p].pendingRequest = some .new)) ∧
          (s.run[p].classIndex = none → code = some e.code → e.code ≠ 0 → s.run[p].latch = true →
            t.run[p] = { s.run[p] with classIndex := some i }) ∧
          (s.run[p].classIndex = some i → code = some e.code → e.code ≠ 0 → s.mgt.classes[i].code = e.code →
            s.mgt.classes[i] ≠ e →
            t.run[p].score = s.run[p].score ∧
            VerdictStep e s.run[p].latch s.run[p].score s.run[p].verdict t.run[p].verdict) ∧
          (s.run[p].classIndex ≠ some i → s.run[p].classIndex ≠ none ∨ code ≠ some e.code → t.run[p] = s.run[p])))

/-- NOTICE-DRAIN removes the smallest of the maximum, 15 and the number of notices from the head of the queue and returns
them, oldest first, 16 bytes each; the attention flags are not touched, and a notice after a drain that empties the queue
latches NOTICE (R172). The bytes show each notice in the layout of 08 (R52, R153); a payload of another length than 1 is refused
RANGE (R154). -/
def Obligations.NoticeDrainReturnsTheOldest : Prop :=
  (∀ (s : State) (f : Frame) (m : Byte) (n : Nat), Asks s f 0x48 [m] →
    n = min (min m.toNat 15) s.mgt.notices.length →
    ∃ t, exec (.noticeDrain f) s = .next t ∧
      Answers { s with mgt := { s.mgt with notices := s.mgt.notices.drop n } } t f.tag 0x80
        ((s.mgt.notices.take n).flatMap encodeNotice) ∧
      (∀ x ∈ s.mgt.notices, (encodeNotice x).length = 16 ∧ ShowsNotice (encodeNotice x) x) ∧
      (n = s.mgt.notices.length → ∀ x : Notice,
        addNotice x t = { t with mgt := { t.mgt with notices := [x], attention := { s.mgt.attention with notice := true } } })) ∧
  (∀ (s : State) (f : Frame), Arrives s f 0x48 → f.payload.length ≠ 1 →
    ∃ t, exec (.noticeDrain f) s = .next t ∧ Refuses s t f.tag 1)

/-- ATTENTION-READ returns the flags and the mask and clears the flags; ATTENTION-MASK replaces the mask, or is refused where
a bit above the five is set (R173, R174). -/
def Obligations.AttentionIsReadAndMasked : Prop :=
  ∀ (s : State) (f : Frame),
    (Arrives s f 0x49 → ∃ t flags mask, exec (.attentionRead f) s = .next t ∧
      Answers { s with mgt := { s.mgt with attention := ⟨false, false, false, false, false⟩ } } t f.tag 0x80 [flags, mask] ∧
      attentionOf flags = s.mgt.attention ∧ attentionOf mask = s.mgt.mask ∧ flags.toNat < 32 ∧ mask.toNat < 32) ∧
    (∀ b : Byte, Asks s f 0x4A [b] →
      (b.toNat < 32 → ∃ t, exec (.attentionMask f) s = .next t ∧
        Answers { s with mgt := { s.mgt with
          mask := ⟨b.getLsbD 0, b.getLsbD 1, b.getLsbD 2, b.getLsbD 3, b.getLsbD 4⟩ } } t f.tag 0x80 []) ∧
      (32 ≤ b.toNat → ∃ t, exec (.attentionMask f) s = .next t ∧ Refuses s t f.tag 1)) ∧
    (Arrives s f 0x4A → f.payload.length ≠ 1 → ∃ t, exec (.attentionMask f) s = .next t ∧ Refuses s t f.tag 1)

/-- POSITION-RELEASE sets the released flag of a position that is neither DISABLED nor VACANT; POSITION-RECHALLENGE calls a
HELD position without the latch to a MANUAL round, or to an identification where it has no identity; the others are refused
STATE, and a number outside 1 to 48 or a payload of another length than 1 RANGE (R21, R57, R127, R154, R170). -/
def Obligations.PositionRequestsFollowThePhase : Prop :=
  ∀ (s : State) (f : Frame) (b : Byte) (p : Pos),
    (f.payload.length ≠ 1 →
      (Arrives s f 0x50 → ∃ t, exec (.positionRelease f) s = .next t ∧ Refuses s t f.tag 1) ∧
      (Arrives s f 0x51 → ∃ t, exec (.positionRechallenge f) s = .next t ∧ Refuses s t f.tag 1)) ∧
    (b = 0 ∨ 48 < b.toNat →
      (Asks s f 0x50 [b] → ∃ t, exec (.positionRelease f) s = .next t ∧ Refuses s t f.tag 1) ∧
      (Asks s f 0x51 [b] → ∃ t, exec (.positionRechallenge f) s = .next t ∧ Refuses s t f.tag 1)) ∧
    (b.toNat = p.val + 1 → Asks s f 0x50 [b] →
      (s.run[p].phase = .disabled ∨ s.run[p].phase = .vacant →
        ∃ t, exec (.positionRelease f) s = .next t ∧ Refuses s t f.tag 6) ∧
      (s.run[p].phase ≠ .disabled → s.run[p].phase ≠ .vacant →
        ∃ t u, exec (.positionRelease f) s = .next t ∧ Answers u t f.tag 0x80 [] ∧ u = { s with run := u.run } ∧
          u.run[p] = { s.run[p] with released := true } ∧ OthersKeep p s u)) ∧
    (b.toNat = p.val + 1 → Asks s f 0x51 [b] →
      (s.run[p].phase ≠ .held ∨ s.run[p].latch = true ∨ (s.run[p].identity ≠ none ∧ s.run[p].classIndex = none) →
        ∃ t, exec (.positionRechallenge f) s = .next t ∧ Refuses s t f.tag 6) ∧
      (s.run[p].phase = .held → s.run[p].latch = false → s.run[p].identity ≠ none → s.run[p].classIndex ≠ none →
        Unasked s p → ∃ t u, exec (.positionRechallenge f) s = .next t ∧ Answers u t f.tag 0x80 [] ∧
          u = { s with run := u.run, sch := { s.sch with queue := s.sch.queue ++ [{ position := p, kind := .due }] } } ∧
          u.run[p] = { s.run[p] with
            phase := .challenging, sweepAge := 0, pendingRequest := some .due, roundKind := .manual } ∧
          OthersKeep p s u) ∧
      (∀ urgent due : List Request, s.run[p].phase = .held → s.run[p].latch = false → s.run[p].identity = none →
        Unasked s p → QueueGroups s.sch.queue urgent due →
        ∃ t u, exec (.positionRechallenge f) s = .next t ∧ Answers u t f.tag 0x80 [] ∧
          u = { s with run := u.run, sch := { s.sch with queue := urgent ++ [{ position := p, kind := .ident }] ++ due } } ∧
          u.run[p] = { s.run[p] with phase := .identifying, sweepAge := 0, pendingRequest := some .ident } ∧
          OthersKeep p s u))

/-- REVOKE-INSERT: refused where the entry is out of range, listed, or the list is full; else the entry takes the place its key
gives, every seated part it matches is revoked with its work abandoned and its notice, in ascending order of position, the work of
the other positions stays, and the reply counts the revoked ones (R105, R107, R108). -/
def Obligations.RevokeInsertRevokesSeatedParts : Prop :=
  (∀ (s : State) (f : Frame) (e : Revocation), Asks s f 0x58 (encodeRevocation e) → e.cls ≠ 0 → e.cls ≠ 0xFFFF →
    RevocationsAscend s →
    (e ∈ s.revocations → ∃ t, exec (.revokeInsert f) s = .next t ∧ Refuses s t f.tag 2) ∧
    (e ∉ s.revocations → 512 ≤ s.revocations.length → ∃ t, exec (.revokeInsert f) s = .next t ∧ Refuses s t f.tag 3) ∧
    (e ∉ s.revocations → s.revocations.length < 512 →
      ∃ (t u : State) (below above : List Revocation) (hit : List Pos), exec (.revokeInsert f) s = .next t ∧
        s.revocations = below ++ above ∧ u.revocations = below ++ [e] ++ above ∧ RevocationsAscend u ∧
        hit.Pairwise (· < ·) ∧ (∀ p, p ∈ hit ↔ InsertHits e s.run[p]) ∧
        Answers u t f.tag 0x80 (be 2 below.length ++ be 2 (s.revocations.length + 1) ++ be 1 hit.length) ∧
        (∀ p ∈ hit, u.run[p] = revokedRuntime s.run[p] ∧ Unasked u p) ∧
        (∀ p, p ∉ hit → u.run[p] = s.run[p]) ∧
        u.sch.queue = s.sch.queue.filter (fun x => decide (x.position ∉ hit)) ∧
        (∀ (i : RecNo) (r : Record), s.sch.records[i] = some r →
          u.sch.records[i] = if r.position ∈ hit then none else some r) ∧
        (∀ i : RecNo, s.sch.records[i] = none → u.sch.records[i] = none) ∧
        (u.mgt.notices, u.mgt.attention) = offered (hit.map (fun p => noticeOf s p .revoked .revoked)) s ∧
        OnlyPositionWork { s with revocations := u.revocations } u ∧ u.sightings = s.sightings)) ∧
  (∀ (s : State) (f : Frame), Arrives s f 0x58 → UnfitRevocation f.payload →
    ∃ t, exec (.revokeInsert f) s = .next t ∧ Refuses s t f.tag 1)

/-- REVOKE-REMOVE removes the equal entry and answers its index and the entries left, or is refused NOT-FOUND, or RANGE for an
entry that fails the range checks of an insert; REVOKE-CLEAR empties the list and answers how many entries it held; no seated
part is examined (R110, R111). -/
def Obligations.RevokeRemoveAndClear : Prop :=
  (∀ (s : State) (f : Frame) (e : Revocation), Asks s f 0x59 (encodeRevocation e) → e.cls ≠ 0 → e.cls ≠ 0xFFFF →
    (e ∉ s.revocations → ∃ t, exec (.revokeRemove f) s = .next t ∧ Refuses s t f.tag 8) ∧
    (∀ a b : List Revocation, s.revocations = a ++ e :: b → e ∉ a →
      ∃ t, exec (.revokeRemove f) s = .next t ∧
        Answers { s with revocations := a ++ b } t f.tag 0x80 (be 2 a.length ++ be 2 (a ++ b).length))) ∧
  (∀ (s : State) (f : Frame), Arrives s f 0x59 → UnfitRevocation f.payload →
    ∃ t, exec (.revokeRemove f) s = .next t ∧ Refuses s t f.tag 1) ∧
  (∀ (s : State) (f : Frame), Arrives s f 0x5A → ∃ t, exec (.revokeClear f) s = .next t ∧
    Answers { s with revocations := [] } t f.tag 0x80 (be 2 s.revocations.length))

/-! ### The key store -/

/-- KEY-PROGRAM, KEY-ERASE and KEY-PROTECT: their tests in order with the cause of each refusal, and the operation each
starts; an accepted erase abandons the challenges that captured a slot of its page without evidence (R77, R181, R183,
R185). -/
def Obligations.KeyRequestsStartOperations : Prop :=
  ∀ (s : State) (f : Frame),
    (∀ (slot : SlotNo) (key : Key), Asks s f 0x60 ([BitVec.ofNat 8 slot.val] ++ be 16 key.toNat) →
      ∃ t, exec (.keyProgram f) s = .next t ∧
        (s.kst.boundary ≤ slot.val → Refuses s t f.tag 5) ∧
        (slot.val < s.kst.boundary → s.kst.slots[slot] ≠ .blank → Refuses s t f.tag 6) ∧
        (slot.val < s.kst.boundary → s.kst.slots[slot] = .blank → s.kst.op ≠ .idle → Refuses s t f.tag 4) ∧
        (slot.val < s.kst.boundary → s.kst.slots[slot] = .blank → s.kst.op = .idle →
          Answers { s with kst := { s.kst with op := .programming slot key (s.now + 4) } } t f.tag 0x81 [])) ∧
    (Arrives s f 0x60 → f.payload.length ≠ 17 ∨ 16 ≤ (f.payload.getD 0 0).toNat →
      ∃ t, exec (.keyProgram f) s = .next t ∧ Refuses s t f.tag 1) ∧
    (∀ page : Fin 4, Asks s f 0x61 [BitVec.ofNat 8 page.val] →
      ∃ t u, exec (.keyErase f) s = .next t ∧
        (s.kst.boundary ≤ 4 * page.val + 3 → Refuses s t f.tag 5) ∧
        (4 * page.val + 3 < s.kst.boundary → s.kst.op ≠ .idle → Refuses s t f.tag 4) ∧
        (4 * page.val + 3 < s.kst.boundary → s.kst.op = .idle → RecordsDistinct s →
          Answers u t f.tag 0x81 [] ∧
          u = { s with
            run := u.run, sch := { s.sch with records := u.sch.records },
            kst := { s.kst with op := .erasing page (s.now + 20) } } ∧
          (∀ p, EraseHits s page p →
            u.run[p] = { s.run[p] with keyMissing := true, remaining := 0, phase := .held }) ∧
          (∀ p, ¬ EraseHits s page p → u.run[p] = s.run[p]) ∧
          (∀ (i : RecNo) (r : Record), s.sch.records[i] = some r →
            (EraseHits s page r.position → u.sch.records[i] = none) ∧
            (¬ EraseHits s page r.position → u.sch.records[i] = some r)))) ∧
    (Arrives s f 0x61 → f.payload.length ≠ 1 ∨ 4 ≤ (f.payload.getD 0 0).toNat →
      ∃ t, exec (.keyErase f) s = .next t ∧ Refuses s t f.tag 1) ∧
    (Arrives s f 0x62 → f.payload.length ≠ 1 → ∃ t, exec (.keyProtect f) s = .next t ∧ Refuses s t f.tag 1) ∧
    (∀ b : Byte, Asks s f 0x62 [b] →
      ∃ t, exec (.keyProtect f) s = .next t ∧
        (16 < b.toNat → Refuses s t f.tag 1) ∧
        (b.toNat ≤ 16 → s.kst.boundary ≤ b.toNat → Refuses s t f.tag 5) ∧
        (b.toNat ≤ 16 → b.toNat < s.kst.boundary → s.kst.op ≠ .idle → Refuses s t f.tag 4) ∧
        (b.toNat ≤ 16 → b.toNat < s.kst.boundary → s.kst.op = .idle →
          Answers { s with kst := { s.kst with op := .protecting b.toNat (s.now + 4) } } t f.tag 0x81 []))

/-- The completion of a program: the slot holds the key where the read-back agrees and is FAULTY otherwise; the answers that
wait in AWAITING-KEY are verified one after another in the order of their arrival, each with its evidence or its key_missing
(R71, R79); and the HELD key_missing positions of the slot are served (R182). The completions of an erase, of a change of the
boundary and of an epoch update, with the same verifications (R79, R179, R184, R185, R187). The events put before the
completion tick, or for another operation, do nothing (the model's choice, LOG 3). -/
def Obligations.CompletionsLeaveTheirResults : Prop :=
  (∀ (s : State) (agrees : Bool), s.live = true →
    (∀ (slot : SlotNo) (key : Key) (due : Nat), s.kst.op = .programming slot key due → due ≤ s.now →
      ∃ t, exec (.programCompletion agrees) s = .next t ∧ OperationOver s t ∧ t.kst.boundary = s.kst.boundary ∧
        t.kst.lastResult = (if agrees then .programmed else .programFaulty) ∧
        t.kst.slots[slot] = (if agrees then .programmed key else .faulty) ∧
        (∀ i : SlotNo, i ≠ slot → t.kst.slots[i] = s.kst.slots[i]) ∧
        (RecordsDistinct s → ∃ u : State, VerifiedInOrder (operationDone s t.kst) u ∧
          (NoneAwaits s → u = operationDone s t.kst) ∧
          (agrees = false → t = { u with kst := t.kst }) ∧
          t = { u with run := t.run, sch := { u.sch with queue := t.sch.queue }, kst := t.kst } ∧
          (agrees = true → ∀ p : Pos,
            (keyServed u slot p = false → t.run[p] = u.run[p]) ∧
            (keyServed u slot p = true → u.run[p].latch = true → t.run[p] = { u.run[p] with keyMissing := false }) ∧
            (keyServed u slot p = true → u.run[p].latch = false → Unasked u p → t.run[p] = { u.run[p] with
              keyMissing := false, phase := .challenging, sweepAge := 0, pendingRequest := some .due,
              roundKind := .due })) ∧
          (agrees = true → (∀ p, keyServed u slot p = true → u.run[p].latch = false → Unasked u p) →
            t.sch.queue = u.sch.queue ++ (ascending (fun p => keyServed u slot p && !u.run[p].latch)).map
              (fun p => { position := p, kind := .due })))) ∧
    ((∀ slot key due, s.kst.op = .programming slot key due → s.now < due) →
      exec (.programCompletion agrees) s = .next s)) ∧
  (∀ (s : State) (checks : Vector Bool 4), s.live = true →
    (∀ (page : Fin 4) (due : Nat), s.kst.op = .erasing page due → due ≤ s.now →
      ∃ t, exec (.eraseCompletion checks) s = .next t ∧ OperationOver s t ∧ t.kst.boundary = s.kst.boundary ∧
        ((∀ i : Fin 4, checks[i] = true) → t.kst.lastResult = .erased) ∧
        ((∃ i : Fin 4, checks[i] = false) → t.kst.lastResult = .eraseFaulty) ∧
        (∀ (i : SlotNo) (j : Fin 4), i.val = 4 * page.val + j.val →
          t.kst.slots[i] = if checks[j] then .blank else .faulty) ∧
        (∀ i : SlotNo, i.val / 4 ≠ page.val → t.kst.slots[i] = s.kst.slots[i]) ∧
        (RecordsDistinct s → ∃ u : State, VerifiedInOrder (operationDone s t.kst) u ∧ t = { u with kst := t.kst })) ∧
    (∀ (b due : Nat), s.kst.op = .protecting b due → due ≤ s.now →
      ∃ t, exec .protectCompletion s = .next t ∧ OperationOver s t ∧ t.kst.boundary = b ∧
        t.kst.lastResult = .protectDone ∧ t.kst.slots = s.kst.slots ∧
        (RecordsDistinct s → ∃ u : State, VerifiedInOrder (operationDone s t.kst) u ∧ t = { u with kst := t.kst })) ∧
    (∀ due : Nat, s.kst.op = .epochUpdate due → due ≤ s.now →
      ∃ t, exec .epochUpdateCompletion s = .next t ∧
        t.kst = { s.kst with epoch := s.kst.epoch + 1, op := .idle } ∧
        (NoneAwaits s → t = { s with kst := t.kst }) ∧
        (RecordsDistinct s → VerifiedInOrder { s with kst := t.kst } t) ∧
        (∀ (i : RecNo) (r : Record) (nonce : Nonce) (slot : SlotNo), t.sch.records[i] = some r →
          r.query = .challenge nonce slot → ¬ ∃ n, AwaitingKey t i n)) ∧
    ((∀ page due, s.kst.op = .erasing page due → s.now < due) → exec (.eraseCompletion checks) s = .next s) ∧
    ((∀ b due, s.kst.op = .protecting b due → s.now < due) → exec .protectCompletion s = .next s) ∧
    ((∀ due, s.kst.op = .epochUpdate due → s.now < due) → exec .epochUpdateCompletion s = .next s))

/-! ### Gating and folding -/

/-- The gate action of a position: the rows of R118, the verdict action of R119, and the stricter of it and policy_worn for a
worn part of a known class (R116, R118 to R120). -/
def Obligations.GateActionFollowsTheVerdict : Prop :=
  ∀ (s : State) (p : Pos),
    (s.device = .starting → s.run[p].phase ≠ .disabled → gateAction s p = .block) ∧
    (s.run[p].phase = .disabled → gateAction s p = .pass) ∧
    (s.device = .running → s.run[p].phase = .vacant ∨ s.run[p].released = true → gateAction s p = .pass) ∧
    (s.device = .running → s.run[p].phase ≠ .disabled → s.run[p].phase ≠ .vacant → s.run[p].released = false →
      (classOf s s.run[p] = none →
        (s.run[p].verdict = .counterfeit ∨ s.run[p].verdict = .revoked → gateAction s p = .block) ∧
        (s.run[p].verdict = .undecided ∨ s.run[p].verdict = .none → gateAction s p = s.mgt.setup.unknownPolicy)) ∧
      (∀ (e : ClassEntry) (base : GateAction), classOf s s.run[p] = some e →
        (s.run[p].verdict = .genuine ∧ base = .pass) ∨
          ((s.run[p].verdict = .counterfeit ∨ s.run[p].verdict = .revoked) ∧ base = e.policyCf) ∨
          (s.run[p].verdict = .undecided ∧ base = e.policyPending) →
        (s.run[p].worn = false → gateAction s p = base) ∧
        (s.run[p].worn = true → (gateAction s p).code = max base.code e.policyWorn.code)))

/-- The rewriting of an output slot byte by byte: PASS leaves it; BLOCK writes 0 over the gate field and the clamp field;
CLAMP limits the 16-bit value of the clamp field, and is a BLOCK without one; under SHORT framing a gate field beyond byte 3
is the whole slot and a clamp field beyond byte 3 is absent (R122, R123). -/
def Obligations.SlotIsRewrittenByTheAction : Prop :=
  ∀ (framing : Framing) (c : PosConfig) (ceiling : Nat) (slot : Bytes) (field : Option Nat), ceiling < 65536 →
    (field = if framing = .short ∧ c.clampOffset.any (fun o => decide (3 ≤ o)) = true then none else c.clampOffset) →
    let blocked (i : Nat) : Prop :=
      (framing = .short ∧ 4 < c.gateOffset + c.gateLength) ∨ (c.gateOffset ≤ i ∧ i < c.gateOffset + c.gateLength) ∨
        field = some i ∨ (0 < i ∧ field = some (i - 1))
    rewriteSlot framing c .pass ceiling slot = slot ∧
    (∀ a : GateAction, (rewriteSlot framing c a ceiling slot).length = slot.length) ∧
    (∀ (a : GateAction) (i : Nat) (b : Byte), a = .block ∨ (a = .clamp ∧ field = none) → slot[i]? = some b →
      (blocked i → (rewriteSlot framing c a ceiling slot)[i]? = some 0) ∧
      (¬ blocked i → (rewriteSlot framing c a ceiling slot)[i]? = some b)) ∧
    (∀ (before : Bytes) (high low : Byte) (after : Bytes), slot = before ++ [high, low] ++ after →
      field = some before.length →
      (high.toNat * 256 + low.toNat ≤ ceiling → rewriteSlot framing c .clamp ceiling slot = slot) ∧
      (ceiling < high.toNat * 256 + low.toNat → ∃ h l : Byte, h.toNat * 256 + l.toNat = ceiling ∧
        rewriteSlot framing c .clamp ceiling slot = before ++ [h, l] ++ after))

/-- The fold: the key words of the key bytes, the message words of a verification, the four steps of each of the ten rounds
in arithmetic modulo 2^32, and the check value (R82 to R87). -/
def Obligations.FoldFollowsItsRounds : Prop :=
  ∀ (key : Key) (nonce : Nonce) (id : Identity) (odo : Word32),
    ∃ (k : Nat → Nat) (m : Nat → Nat) (a b : Nat → Nat),
      (∀ i < 4, k i = key.toNat / 2 ^ (96 - 32 * i) % 2 ^ 32) ∧
      m 0 = nonce.toNat / 2 ^ 32 ∧ m 1 = nonce.toNat % 2 ^ 32 ∧ m 2 = id.serial.toNat / 2 ^ 16 ∧
      m 3 = id.serial.toNat % 2 ^ 16 * 65536 + id.cls.toNat ∧ m 4 = odo.toNat ∧ m 5 = id.lot.toNat ∧
      (∀ j < 4, m (6 + j) = k j) ∧ a 0 = k 0 ∧ b 0 = k 1 ∧
      (∀ r < 10, ∃ (a1 b3 : Nat),
        a1 = (a r + m r) % 2 ^ 32 ∧
        a (r + 1) = (a1 * 2 ^ 5 % 2 ^ 32 + a1 / 2 ^ 27) ^^^ b r ∧
        b3 = (b r + a (r + 1) + k ((if r < 6 then r + 2 else r - 6 + 2) % 4)) % 2 ^ 32 ∧
        b (r + 1) = b3 * 2 ^ 11 % 2 ^ 32 + b3 / 2 ^ 21) ∧
      (responseWord key nonce id odo).toNat = a 10 ^^^ b 10 ∧
      checkValue (.programmed key) = responseWord key 0 { serial := 0, cls := 0, lot := 0 } 0 ∧
      checkValue .blank = 0 ∧ checkValue .faulty = 0 ∧ checkValue (.programmed 0) = 0

/-! ### What every step keeps -/

/-- Every step keeps the scores within -1000 to +1000, the queues and lists within what the manual gives them (R28, R105,
R147, R164, R171, R195), and the order of positions, queue, records and sighting entries: one queue entry a position (R55), the
IDENT and NEW entries of the queue before its DUE entries (R56), at most 128 sighting entries (R91), each holder with its entry's identity (R95), a latch on COUNTERFEIT and REVOKED verdicts only,
and every REVOKED verdict latched (R45, R112). -/
def Obligations.EveryStepKeepsTheBounds : Prop :=
  ∀ s t : State, step s = .next t →
    (ScoresInRange s → ScoresInRange t) ∧ (QueuesFit s → QueuesFit t) ∧ (Orderly s → Orderly t)

/-- The protection boundary never rises and no slot at or above it changes, at any step, whatever is in flight was accepted
under the boundary (R178, R181, R183, R185, R189). -/
def Obligations.ProtectedSlotsNeverChange : Prop :=
  ∀ s t : State, OperationGuarded s.kst → step s = .next t →
    OperationGuarded t.kst ∧ t.kst.boundary ≤ s.kst.boundary ∧
      ∀ i : SlotNo, s.kst.boundary ≤ i.val → t.kst.slots[i] = s.kst.slots[i]

/-- Every step keeps the tags and positions of the records in use apart (R55, R57, R61, R62), and the revocation entries in
strictly ascending order (R105). -/
def Obligations.EveryStepKeepsTablesDistinct : Prop :=
  ∀ s t : State, step s = .next t →
    (RecordsDistinct s → RecordsDistinct t) ∧ (RevocationsAscend s → RevocationsAscend t)

/-- The part as delivered meets every invariant stated of the steps. -/
def Obligations.ResetMeetsTheInvariants : Prop :=
  ScoresInRange State.reset ∧ QueuesFit State.reset ∧ Orderly State.reset ∧ OperationGuarded State.reset.kst ∧
    RecordsDistinct State.reset ∧ RevocationsAscend State.reset
end

