-- ==== Sys2Proof/Laws/State.lean ====
section
/-! SUPPORT. What each update of the state leaves alone, one lemma for each field, and what it writes. -/

namespace Sys2Proof.Machine

@[simp] theorem modRun_pending (p : Pos) (f : Runtime → Runtime) (s : State) : (modRun p f s).pending = s.pending := rfl
@[simp] theorem modRun_freeIndex (p : Pos) (f : Runtime → Runtime) (s : State) : (modRun p f s).freeIndex = s.freeIndex := rfl
@[simp] theorem modRun_supply (p : Pos) (f : Runtime → Runtime) (s : State) : (modRun p f s).supply = s.supply := rfl
@[simp] theorem modRun_resetAsserted (p : Pos) (f : Runtime → Runtime) (s : State) : (modRun p f s).resetAsserted = s.resetAsserted := rfl
@[simp] theorem modRun_now (p : Pos) (f : Runtime → Runtime) (s : State) : (modRun p f s).now = s.now := rfl
@[simp] theorem modRun_device (p : Pos) (f : Runtime → Runtime) (s : State) : (modRun p f s).device = s.device := rfl
@[simp] theorem modRun_startCount (p : Pos) (f : Runtime → Runtime) (s : State) : (modRun p f s).startCount = s.startCount := rfl
@[simp] theorem modRun_configs (p : Pos) (f : Runtime → Runtime) (s : State) : (modRun p f s).configs = s.configs := rfl
@[simp] theorem modRun_sch (p : Pos) (f : Runtime → Runtime) (s : State) : (modRun p f s).sch = s.sch := rfl
@[simp] theorem modRun_sightings (p : Pos) (f : Runtime → Runtime) (s : State) : (modRun p f s).sightings = s.sightings := rfl
@[simp] theorem modRun_revocations (p : Pos) (f : Runtime → Runtime) (s : State) : (modRun p f s).revocations = s.revocations := rfl
@[simp] theorem modRun_gatedMap (p : Pos) (f : Runtime → Runtime) (s : State) : (modRun p f s).gatedMap = s.gatedMap := rfl
@[simp] theorem modRun_fwd (p : Pos) (f : Runtime → Runtime) (s : State) : (modRun p f s).fwd = s.fwd := rfl
@[simp] theorem modRun_mgt (p : Pos) (f : Runtime → Runtime) (s : State) : (modRun p f s).mgt = s.mgt := rfl
@[simp] theorem modRun_kst (p : Pos) (f : Runtime → Runtime) (s : State) : (modRun p f s).kst = s.kst := rfl

@[simp] theorem setRecord_pending (i : RecNo) (r : Option Record) (s : State) : (setRecord i r s).pending = s.pending := rfl
@[simp] theorem setRecord_freeIndex (i : RecNo) (r : Option Record) (s : State) : (setRecord i r s).freeIndex = s.freeIndex := rfl
@[simp] theorem setRecord_supply (i : RecNo) (r : Option Record) (s : State) : (setRecord i r s).supply = s.supply := rfl
@[simp] theorem setRecord_resetAsserted (i : RecNo) (r : Option Record) (s : State) : (setRecord i r s).resetAsserted = s.resetAsserted := rfl
@[simp] theorem setRecord_now (i : RecNo) (r : Option Record) (s : State) : (setRecord i r s).now = s.now := rfl
@[simp] theorem setRecord_device (i : RecNo) (r : Option Record) (s : State) : (setRecord i r s).device = s.device := rfl
@[simp] theorem setRecord_startCount (i : RecNo) (r : Option Record) (s : State) : (setRecord i r s).startCount = s.startCount := rfl
@[simp] theorem setRecord_configs (i : RecNo) (r : Option Record) (s : State) : (setRecord i r s).configs = s.configs := rfl
@[simp] theorem setRecord_run (i : RecNo) (r : Option Record) (s : State) : (setRecord i r s).run = s.run := rfl
@[simp] theorem setRecord_sightings (i : RecNo) (r : Option Record) (s : State) : (setRecord i r s).sightings = s.sightings := rfl
@[simp] theorem setRecord_revocations (i : RecNo) (r : Option Record) (s : State) : (setRecord i r s).revocations = s.revocations := rfl
@[simp] theorem setRecord_gatedMap (i : RecNo) (r : Option Record) (s : State) : (setRecord i r s).gatedMap = s.gatedMap := rfl
@[simp] theorem setRecord_fwd (i : RecNo) (r : Option Record) (s : State) : (setRecord i r s).fwd = s.fwd := rfl
@[simp] theorem setRecord_mgt (i : RecNo) (r : Option Record) (s : State) : (setRecord i r s).mgt = s.mgt := rfl
@[simp] theorem setRecord_kst (i : RecNo) (r : Option Record) (s : State) : (setRecord i r s).kst = s.kst := rfl

@[simp] theorem freeRecordOf_pending (p : Pos) (s : State) : (freeRecordOf p s).pending = s.pending := rfl
@[simp] theorem freeRecordOf_freeIndex (p : Pos) (s : State) : (freeRecordOf p s).freeIndex = s.freeIndex := rfl
@[simp] theorem freeRecordOf_supply (p : Pos) (s : State) : (freeRecordOf p s).supply = s.supply := rfl
@[simp] theorem freeRecordOf_resetAsserted (p : Pos) (s : State) : (freeRecordOf p s).resetAsserted = s.resetAsserted := rfl
@[simp] theorem freeRecordOf_now (p : Pos) (s : State) : (freeRecordOf p s).now = s.now := rfl
@[simp] theorem freeRecordOf_device (p : Pos) (s : State) : (freeRecordOf p s).device = s.device := rfl
@[simp] theorem freeRecordOf_startCount (p : Pos) (s : State) : (freeRecordOf p s).startCount = s.startCount := rfl
@[simp] theorem freeRecordOf_configs (p : Pos) (s : State) : (freeRecordOf p s).configs = s.configs := rfl
@[simp] theorem freeRecordOf_run (p : Pos) (s : State) : (freeRecordOf p s).run = s.run := rfl
@[simp] theorem freeRecordOf_sightings (p : Pos) (s : State) : (freeRecordOf p s).sightings = s.sightings := rfl
@[simp] theorem freeRecordOf_revocations (p : Pos) (s : State) : (freeRecordOf p s).revocations = s.revocations := rfl
@[simp] theorem freeRecordOf_gatedMap (p : Pos) (s : State) : (freeRecordOf p s).gatedMap = s.gatedMap := rfl
@[simp] theorem freeRecordOf_fwd (p : Pos) (s : State) : (freeRecordOf p s).fwd = s.fwd := rfl
@[simp] theorem freeRecordOf_mgt (p : Pos) (s : State) : (freeRecordOf p s).mgt = s.mgt := rfl
@[simp] theorem freeRecordOf_kst (p : Pos) (s : State) : (freeRecordOf p s).kst = s.kst := rfl

@[simp] theorem recordSighting_pending (p : Pos) (o : Word32) (s : State) : (recordSighting p o s).pending = s.pending := rfl
@[simp] theorem recordSighting_freeIndex (p : Pos) (o : Word32) (s : State) : (recordSighting p o s).freeIndex = s.freeIndex := rfl
@[simp] theorem recordSighting_supply (p : Pos) (o : Word32) (s : State) : (recordSighting p o s).supply = s.supply := rfl
@[simp] theorem recordSighting_resetAsserted (p : Pos) (o : Word32) (s : State) : (recordSighting p o s).resetAsserted = s.resetAsserted := rfl
@[simp] theorem recordSighting_now (p : Pos) (o : Word32) (s : State) : (recordSighting p o s).now = s.now := rfl
@[simp] theorem recordSighting_device (p : Pos) (o : Word32) (s : State) : (recordSighting p o s).device = s.device := rfl
@[simp] theorem recordSighting_startCount (p : Pos) (o : Word32) (s : State) : (recordSighting p o s).startCount = s.startCount := rfl
@[simp] theorem recordSighting_configs (p : Pos) (o : Word32) (s : State) : (recordSighting p o s).configs = s.configs := rfl
@[simp] theorem recordSighting_run (p : Pos) (o : Word32) (s : State) : (recordSighting p o s).run = s.run := rfl
@[simp] theorem recordSighting_sch (p : Pos) (o : Word32) (s : State) : (recordSighting p o s).sch = s.sch := rfl
@[simp] theorem recordSighting_revocations (p : Pos) (o : Word32) (s : State) : (recordSighting p o s).revocations = s.revocations := rfl
@[simp] theorem recordSighting_gatedMap (p : Pos) (o : Word32) (s : State) : (recordSighting p o s).gatedMap = s.gatedMap := rfl
@[simp] theorem recordSighting_fwd (p : Pos) (o : Word32) (s : State) : (recordSighting p o s).fwd = s.fwd := rfl
@[simp] theorem recordSighting_mgt (p : Pos) (o : Word32) (s : State) : (recordSighting p o s).mgt = s.mgt := rfl
@[simp] theorem recordSighting_kst (p : Pos) (o : Word32) (s : State) : (recordSighting p o s).kst = s.kst := rfl

@[simp] theorem leaveSighting_pending (p : Pos) (s : State) : (leaveSighting p s).pending = s.pending := rfl
@[simp] theorem leaveSighting_freeIndex (p : Pos) (s : State) : (leaveSighting p s).freeIndex = s.freeIndex := rfl
@[simp] theorem leaveSighting_supply (p : Pos) (s : State) : (leaveSighting p s).supply = s.supply := rfl
@[simp] theorem leaveSighting_resetAsserted (p : Pos) (s : State) : (leaveSighting p s).resetAsserted = s.resetAsserted := rfl
@[simp] theorem leaveSighting_now (p : Pos) (s : State) : (leaveSighting p s).now = s.now := rfl
@[simp] theorem leaveSighting_device (p : Pos) (s : State) : (leaveSighting p s).device = s.device := rfl
@[simp] theorem leaveSighting_startCount (p : Pos) (s : State) : (leaveSighting p s).startCount = s.startCount := rfl
@[simp] theorem leaveSighting_configs (p : Pos) (s : State) : (leaveSighting p s).configs = s.configs := rfl
@[simp] theorem leaveSighting_run (p : Pos) (s : State) : (leaveSighting p s).run = s.run := rfl
@[simp] theorem leaveSighting_sch (p : Pos) (s : State) : (leaveSighting p s).sch = s.sch := rfl
@[simp] theorem leaveSighting_revocations (p : Pos) (s : State) : (leaveSighting p s).revocations = s.revocations := rfl
@[simp] theorem leaveSighting_gatedMap (p : Pos) (s : State) : (leaveSighting p s).gatedMap = s.gatedMap := rfl
@[simp] theorem leaveSighting_fwd (p : Pos) (s : State) : (leaveSighting p s).fwd = s.fwd := rfl
@[simp] theorem leaveSighting_mgt (p : Pos) (s : State) : (leaveSighting p s).mgt = s.mgt := rfl
@[simp] theorem leaveSighting_kst (p : Pos) (s : State) : (leaveSighting p s).kst = s.kst := rfl

@[simp] theorem latchNotice_pending (s : State) : (latchNotice s).pending = s.pending := rfl
@[simp] theorem latchNotice_freeIndex (s : State) : (latchNotice s).freeIndex = s.freeIndex := rfl
@[simp] theorem latchNotice_supply (s : State) : (latchNotice s).supply = s.supply := rfl
@[simp] theorem latchNotice_resetAsserted (s : State) : (latchNotice s).resetAsserted = s.resetAsserted := rfl
@[simp] theorem latchNotice_now (s : State) : (latchNotice s).now = s.now := rfl
@[simp] theorem latchNotice_device (s : State) : (latchNotice s).device = s.device := rfl
@[simp] theorem latchNotice_startCount (s : State) : (latchNotice s).startCount = s.startCount := rfl
@[simp] theorem latchNotice_configs (s : State) : (latchNotice s).configs = s.configs := rfl
@[simp] theorem latchNotice_run (s : State) : (latchNotice s).run = s.run := rfl
@[simp] theorem latchNotice_sch (s : State) : (latchNotice s).sch = s.sch := rfl
@[simp] theorem latchNotice_sightings (s : State) : (latchNotice s).sightings = s.sightings := rfl
@[simp] theorem latchNotice_revocations (s : State) : (latchNotice s).revocations = s.revocations := rfl
@[simp] theorem latchNotice_gatedMap (s : State) : (latchNotice s).gatedMap = s.gatedMap := rfl
@[simp] theorem latchNotice_fwd (s : State) : (latchNotice s).fwd = s.fwd := rfl
@[simp] theorem latchNotice_kst (s : State) : (latchNotice s).kst = s.kst := rfl

@[simp] theorem latchOverrun_pending (s : State) : (latchOverrun s).pending = s.pending := rfl
@[simp] theorem latchOverrun_freeIndex (s : State) : (latchOverrun s).freeIndex = s.freeIndex := rfl
@[simp] theorem latchOverrun_supply (s : State) : (latchOverrun s).supply = s.supply := rfl
@[simp] theorem latchOverrun_resetAsserted (s : State) : (latchOverrun s).resetAsserted = s.resetAsserted := rfl
@[simp] theorem latchOverrun_now (s : State) : (latchOverrun s).now = s.now := rfl
@[simp] theorem latchOverrun_device (s : State) : (latchOverrun s).device = s.device := rfl
@[simp] theorem latchOverrun_startCount (s : State) : (latchOverrun s).startCount = s.startCount := rfl
@[simp] theorem latchOverrun_configs (s : State) : (latchOverrun s).configs = s.configs := rfl
@[simp] theorem latchOverrun_run (s : State) : (latchOverrun s).run = s.run := rfl
@[simp] theorem latchOverrun_sch (s : State) : (latchOverrun s).sch = s.sch := rfl
@[simp] theorem latchOverrun_sightings (s : State) : (latchOverrun s).sightings = s.sightings := rfl
@[simp] theorem latchOverrun_revocations (s : State) : (latchOverrun s).revocations = s.revocations := rfl
@[simp] theorem latchOverrun_gatedMap (s : State) : (latchOverrun s).gatedMap = s.gatedMap := rfl
@[simp] theorem latchOverrun_fwd (s : State) : (latchOverrun s).fwd = s.fwd := rfl
@[simp] theorem latchOverrun_kst (s : State) : (latchOverrun s).kst = s.kst := rfl

@[simp] theorem latchKeyDone_pending (s : State) : (latchKeyDone s).pending = s.pending := rfl
@[simp] theorem latchKeyDone_freeIndex (s : State) : (latchKeyDone s).freeIndex = s.freeIndex := rfl
@[simp] theorem latchKeyDone_supply (s : State) : (latchKeyDone s).supply = s.supply := rfl
@[simp] theorem latchKeyDone_resetAsserted (s : State) : (latchKeyDone s).resetAsserted = s.resetAsserted := rfl
@[simp] theorem latchKeyDone_now (s : State) : (latchKeyDone s).now = s.now := rfl
@[simp] theorem latchKeyDone_device (s : State) : (latchKeyDone s).device = s.device := rfl
@[simp] theorem latchKeyDone_startCount (s : State) : (latchKeyDone s).startCount = s.startCount := rfl
@[simp] theorem latchKeyDone_configs (s : State) : (latchKeyDone s).configs = s.configs := rfl
@[simp] theorem latchKeyDone_run (s : State) : (latchKeyDone s).run = s.run := rfl
@[simp] theorem latchKeyDone_sch (s : State) : (latchKeyDone s).sch = s.sch := rfl
@[simp] theorem latchKeyDone_sightings (s : State) : (latchKeyDone s).sightings = s.sightings := rfl
@[simp] theorem latchKeyDone_revocations (s : State) : (latchKeyDone s).revocations = s.revocations := rfl
@[simp] theorem latchKeyDone_gatedMap (s : State) : (latchKeyDone s).gatedMap = s.gatedMap := rfl
@[simp] theorem latchKeyDone_fwd (s : State) : (latchKeyDone s).fwd = s.fwd := rfl
@[simp] theorem latchKeyDone_kst (s : State) : (latchKeyDone s).kst = s.kst := rfl

@[simp] theorem latchKeyMissing_pending (s : State) : (latchKeyMissing s).pending = s.pending := rfl
@[simp] theorem latchKeyMissing_freeIndex (s : State) : (latchKeyMissing s).freeIndex = s.freeIndex := rfl
@[simp] theorem latchKeyMissing_supply (s : State) : (latchKeyMissing s).supply = s.supply := rfl
@[simp] theorem latchKeyMissing_resetAsserted (s : State) : (latchKeyMissing s).resetAsserted = s.resetAsserted := rfl
@[simp] theorem latchKeyMissing_now (s : State) : (latchKeyMissing s).now = s.now := rfl
@[simp] theorem latchKeyMissing_device (s : State) : (latchKeyMissing s).device = s.device := rfl
@[simp] theorem latchKeyMissing_startCount (s : State) : (latchKeyMissing s).startCount = s.startCount := rfl
@[simp] theorem latchKeyMissing_configs (s : State) : (latchKeyMissing s).configs = s.configs := rfl
@[simp] theorem latchKeyMissing_run (s : State) : (latchKeyMissing s).run = s.run := rfl
@[simp] theorem latchKeyMissing_sch (s : State) : (latchKeyMissing s).sch = s.sch := rfl
@[simp] theorem latchKeyMissing_sightings (s : State) : (latchKeyMissing s).sightings = s.sightings := rfl
@[simp] theorem latchKeyMissing_revocations (s : State) : (latchKeyMissing s).revocations = s.revocations := rfl
@[simp] theorem latchKeyMissing_gatedMap (s : State) : (latchKeyMissing s).gatedMap = s.gatedMap := rfl
@[simp] theorem latchKeyMissing_fwd (s : State) : (latchKeyMissing s).fwd = s.fwd := rfl
@[simp] theorem latchKeyMissing_kst (s : State) : (latchKeyMissing s).kst = s.kst := rfl

@[simp] theorem latchFraming_pending (s : State) : (latchFraming s).pending = s.pending := rfl
@[simp] theorem latchFraming_freeIndex (s : State) : (latchFraming s).freeIndex = s.freeIndex := rfl
@[simp] theorem latchFraming_supply (s : State) : (latchFraming s).supply = s.supply := rfl
@[simp] theorem latchFraming_resetAsserted (s : State) : (latchFraming s).resetAsserted = s.resetAsserted := rfl
@[simp] theorem latchFraming_now (s : State) : (latchFraming s).now = s.now := rfl
@[simp] theorem latchFraming_device (s : State) : (latchFraming s).device = s.device := rfl
@[simp] theorem latchFraming_startCount (s : State) : (latchFraming s).startCount = s.startCount := rfl
@[simp] theorem latchFraming_configs (s : State) : (latchFraming s).configs = s.configs := rfl
@[simp] theorem latchFraming_run (s : State) : (latchFraming s).run = s.run := rfl
@[simp] theorem latchFraming_sch (s : State) : (latchFraming s).sch = s.sch := rfl
@[simp] theorem latchFraming_sightings (s : State) : (latchFraming s).sightings = s.sightings := rfl
@[simp] theorem latchFraming_revocations (s : State) : (latchFraming s).revocations = s.revocations := rfl
@[simp] theorem latchFraming_gatedMap (s : State) : (latchFraming s).gatedMap = s.gatedMap := rfl
@[simp] theorem latchFraming_fwd (s : State) : (latchFraming s).fwd = s.fwd := rfl
@[simp] theorem latchFraming_kst (s : State) : (latchFraming s).kst = s.kst := rfl

@[simp] theorem sendD_pending (b : Bytes) (s : State) : (sendD b s).pending = s.pending := rfl
@[simp] theorem sendD_freeIndex (b : Bytes) (s : State) : (sendD b s).freeIndex = s.freeIndex := rfl
@[simp] theorem sendD_supply (b : Bytes) (s : State) : (sendD b s).supply = s.supply := rfl
@[simp] theorem sendD_resetAsserted (b : Bytes) (s : State) : (sendD b s).resetAsserted = s.resetAsserted := rfl
@[simp] theorem sendD_now (b : Bytes) (s : State) : (sendD b s).now = s.now := rfl
@[simp] theorem sendD_device (b : Bytes) (s : State) : (sendD b s).device = s.device := rfl
@[simp] theorem sendD_startCount (b : Bytes) (s : State) : (sendD b s).startCount = s.startCount := rfl
@[simp] theorem sendD_configs (b : Bytes) (s : State) : (sendD b s).configs = s.configs := rfl
@[simp] theorem sendD_run (b : Bytes) (s : State) : (sendD b s).run = s.run := rfl
@[simp] theorem sendD_sch (b : Bytes) (s : State) : (sendD b s).sch = s.sch := rfl
@[simp] theorem sendD_sightings (b : Bytes) (s : State) : (sendD b s).sightings = s.sightings := rfl
@[simp] theorem sendD_revocations (b : Bytes) (s : State) : (sendD b s).revocations = s.revocations := rfl
@[simp] theorem sendD_gatedMap (b : Bytes) (s : State) : (sendD b s).gatedMap = s.gatedMap := rfl
@[simp] theorem sendD_mgt (b : Bytes) (s : State) : (sendD b s).mgt = s.mgt := rfl
@[simp] theorem sendD_kst (b : Bytes) (s : State) : (sendD b s).kst = s.kst := rfl

@[simp] theorem moveCursor_pending (p : Pos) (s : State) : (moveCursor p s).pending = s.pending := rfl
@[simp] theorem moveCursor_freeIndex (p : Pos) (s : State) : (moveCursor p s).freeIndex = s.freeIndex := rfl
@[simp] theorem moveCursor_supply (p : Pos) (s : State) : (moveCursor p s).supply = s.supply := rfl
@[simp] theorem moveCursor_resetAsserted (p : Pos) (s : State) : (moveCursor p s).resetAsserted = s.resetAsserted := rfl
@[simp] theorem moveCursor_now (p : Pos) (s : State) : (moveCursor p s).now = s.now := rfl
@[simp] theorem moveCursor_device (p : Pos) (s : State) : (moveCursor p s).device = s.device := rfl
@[simp] theorem moveCursor_startCount (p : Pos) (s : State) : (moveCursor p s).startCount = s.startCount := rfl
@[simp] theorem moveCursor_configs (p : Pos) (s : State) : (moveCursor p s).configs = s.configs := rfl
@[simp] theorem moveCursor_run (p : Pos) (s : State) : (moveCursor p s).run = s.run := rfl
@[simp] theorem moveCursor_sightings (p : Pos) (s : State) : (moveCursor p s).sightings = s.sightings := rfl
@[simp] theorem moveCursor_revocations (p : Pos) (s : State) : (moveCursor p s).revocations = s.revocations := rfl
@[simp] theorem moveCursor_gatedMap (p : Pos) (s : State) : (moveCursor p s).gatedMap = s.gatedMap := rfl
@[simp] theorem moveCursor_fwd (p : Pos) (s : State) : (moveCursor p s).fwd = s.fwd := rfl
@[simp] theorem moveCursor_mgt (p : Pos) (s : State) : (moveCursor p s).mgt = s.mgt := rfl
@[simp] theorem moveCursor_kst (p : Pos) (s : State) : (moveCursor p s).kst = s.kst := rfl

@[simp] theorem sendCycle_pending (w : WaitingCycle) (s : State) : (sendCycle w s).pending = s.pending := rfl
@[simp] theorem sendCycle_freeIndex (w : WaitingCycle) (s : State) : (sendCycle w s).freeIndex = s.freeIndex := rfl
@[simp] theorem sendCycle_supply (w : WaitingCycle) (s : State) : (sendCycle w s).supply = s.supply := rfl
@[simp] theorem sendCycle_resetAsserted (w : WaitingCycle) (s : State) : (sendCycle w s).resetAsserted = s.resetAsserted := rfl
@[simp] theorem sendCycle_now (w : WaitingCycle) (s : State) : (sendCycle w s).now = s.now := rfl
@[simp] theorem sendCycle_device (w : WaitingCycle) (s : State) : (sendCycle w s).device = s.device := rfl
@[simp] theorem sendCycle_startCount (w : WaitingCycle) (s : State) : (sendCycle w s).startCount = s.startCount := rfl
@[simp] theorem sendCycle_configs (w : WaitingCycle) (s : State) : (sendCycle w s).configs = s.configs := rfl
@[simp] theorem sendCycle_run (w : WaitingCycle) (s : State) : (sendCycle w s).run = s.run := rfl
@[simp] theorem sendCycle_sch (w : WaitingCycle) (s : State) : (sendCycle w s).sch = s.sch := rfl
@[simp] theorem sendCycle_sightings (w : WaitingCycle) (s : State) : (sendCycle w s).sightings = s.sightings := rfl
@[simp] theorem sendCycle_revocations (w : WaitingCycle) (s : State) : (sendCycle w s).revocations = s.revocations := rfl
@[simp] theorem sendCycle_gatedMap (w : WaitingCycle) (s : State) : (sendCycle w s).gatedMap = s.gatedMap := rfl
@[simp] theorem sendCycle_mgt (w : WaitingCycle) (s : State) : (sendCycle w s).mgt = s.mgt := rfl
@[simp] theorem sendCycle_kst (w : WaitingCycle) (s : State) : (sendCycle w s).kst = s.kst := rfl

@[simp] theorem openBoundary_pending (g : Framing) (s : State) : (openBoundary g s).pending = s.pending := rfl
@[simp] theorem openBoundary_freeIndex (g : Framing) (s : State) : (openBoundary g s).freeIndex = s.freeIndex := rfl
@[simp] theorem openBoundary_supply (g : Framing) (s : State) : (openBoundary g s).supply = s.supply := rfl
@[simp] theorem openBoundary_resetAsserted (g : Framing) (s : State) : (openBoundary g s).resetAsserted = s.resetAsserted := rfl
@[simp] theorem openBoundary_now (g : Framing) (s : State) : (openBoundary g s).now = s.now := rfl
@[simp] theorem openBoundary_device (g : Framing) (s : State) : (openBoundary g s).device = s.device := rfl
@[simp] theorem openBoundary_startCount (g : Framing) (s : State) : (openBoundary g s).startCount = s.startCount := rfl
@[simp] theorem openBoundary_configs (g : Framing) (s : State) : (openBoundary g s).configs = s.configs := rfl
@[simp] theorem openBoundary_run (g : Framing) (s : State) : (openBoundary g s).run = s.run := rfl
@[simp] theorem openBoundary_sch (g : Framing) (s : State) : (openBoundary g s).sch = s.sch := rfl
@[simp] theorem openBoundary_sightings (g : Framing) (s : State) : (openBoundary g s).sightings = s.sightings := rfl
@[simp] theorem openBoundary_revocations (g : Framing) (s : State) : (openBoundary g s).revocations = s.revocations := rfl
@[simp] theorem openBoundary_gatedMap (g : Framing) (s : State) : (openBoundary g s).gatedMap = s.gatedMap := rfl
@[simp] theorem openBoundary_mgt (g : Framing) (s : State) : (openBoundary g s).mgt = s.mgt := rfl
@[simp] theorem openBoundary_kst (g : Framing) (s : State) : (openBoundary g s).kst = s.kst := rfl

/-! ### What the updates write -/

@[simp] theorem modRun_run_self (p : Pos) (f : Runtime → Runtime) (s : State) :
    (modRun p f s).run[p.val] = f s.run[p.val] := by
  simp [modRun]

@[simp] theorem modRun_run_other {p q : Pos} (h : q ≠ p) (f : Runtime → Runtime) (s : State) :
    (modRun p f s).run[q.val] = s.run[q.val] := by
  have : p.val ≠ q.val := fun e => h (Fin.ext e.symm)
  simp [modRun, this]

theorem modRun_run (p q : Pos) (f : Runtime → Runtime) (s : State) :
    (modRun p f s).run[q.val] = if q = p then f s.run[q.val] else s.run[q.val] := by
  by_cases h : q = p
  · subst h; simp
  · simp [h]

@[simp] theorem setRecord_self (i : RecNo) (r : Option Record) (s : State) : (setRecord i r s).sch.records[i.val] = r := by
  simp [setRecord]

@[simp] theorem setRecord_other {i j : RecNo} (h : j ≠ i) (r : Option Record) (s : State) :
    (setRecord i r s).sch.records[j.val] = s.sch.records[j.val] := by
  have : i.val ≠ j.val := fun e => h (Fin.ext e.symm)
  simp [setRecord, this]

@[simp] theorem setRecord_queue (i : RecNo) (r : Option Record) (s : State) : (setRecord i r s).sch.queue = s.sch.queue := rfl
@[simp] theorem setRecord_cursor (i : RecNo) (r : Option Record) (s : State) : (setRecord i r s).sch.cursor = s.sch.cursor := rfl
@[simp] theorem setRecord_tagCounter (i : RecNo) (r : Option Record) (s : State) :
    (setRecord i r s).sch.tagCounter = s.sch.tagCounter := rfl
@[simp] theorem setRecord_nonceCounter (i : RecNo) (r : Option Record) (s : State) :
    (setRecord i r s).sch.nonceCounter = s.sch.nonceCounter := rfl

@[simp] theorem freeRecordOf_queue (p : Pos) (s : State) : (freeRecordOf p s).sch.queue = s.sch.queue := rfl

@[simp] theorem latchNotice_notices (s : State) : (latchNotice s).mgt.notices = s.mgt.notices := rfl
@[simp] theorem latchOverrun_notices (s : State) : (latchOverrun s).mgt.notices = s.mgt.notices := rfl
@[simp] theorem latchKeyDone_notices (s : State) : (latchKeyDone s).mgt.notices = s.mgt.notices := rfl
@[simp] theorem latchKeyMissing_notices (s : State) : (latchKeyMissing s).mgt.notices = s.mgt.notices := rfl
@[simp] theorem latchFraming_notices (s : State) : (latchFraming s).mgt.notices = s.mgt.notices := rfl

/-- A telegram made ready stands after every telegram of port U (R149). -/
theorem portU_emitU (bytes : Bytes) (opensGap : Bool) (s : State) :
    portU (emitU bytes opensGap s) = portU s ++ [⟨bytes, opensGap⟩] := by
  unfold emitU
  split
  · next h => simp [portU, h.1, h.2]
  · simp [portU]

/-- Making a telegram ready for port U changes nothing but the telegrams of port U. -/
theorem emitU_frame (bytes : Bytes) (opensGap : Bool) (s : State) :
    emitU bytes opensGap s =
      { s with fwd := { s.fwd with uSending := (emitU bytes opensGap s).fwd.uSending,
                                   uReady := (emitU bytes opensGap s).fwd.uReady } } := by
  unfold emitU
  split <;> rfl

end Sys2Proof.Machine
end

