-- ==== Sys2Proof/Laws/PositionWork.lean ====
section
/-! SUPPORT. What the work of the blocks at a position can change: runtime halves, the request queue and the records, the
sighting entries, the notices and the attention flags, and nothing else; scores stay in range and the notice queue within
its capacity. One lemma for each operation of POS, EVD and SCH that works at positions. -/

namespace Sys2Proof.Machine

/-- `t` is `s` after work at positions. -/
structure PositionWork (s t : State) : Prop where
  frame : t = { s with
    run := t.run, sightings := t.sightings, sch := { s.sch with queue := t.sch.queue, records := t.sch.records },
    mgt := { s.mgt with notices := t.mgt.notices, attention := t.mgt.attention } }
  notices : s.mgt.notices.length ≤ 32 → t.mgt.notices.length ≤ 32
  scores : ScoresInRange s → ScoresInRange t

namespace PositionWork

theorem refl (s : State) : PositionWork s s := ⟨rfl, id, id⟩

theorem trans {s t u : State} (h : PositionWork s t) (k : PositionWork t u) : PositionWork s u :=
  ⟨by rw [k.frame, h.frame], fun x => k.notices (h.notices x), fun x => k.scores (h.scores x)⟩

/-- Work at positions one after another. -/
theorem foldl {α : Type} (f : α → State → State) (hf : ∀ a s, PositionWork s (f a s)) (l : List α) (s : State) :
    PositionWork s (l.foldl (fun t a => f a t) s) := by
  induction l generalizing s with
  | nil => exact refl s
  | cons a l ih => exact (hf a s).trans (ih _)

section
variable {s t : State} (h : PositionWork s t)
include h

theorem pending : t.pending = s.pending := by rw [h.frame]
theorem supply : t.supply = s.supply := by rw [h.frame]
theorem resetAsserted : t.resetAsserted = s.resetAsserted := by rw [h.frame]
theorem freeIndex : t.freeIndex = s.freeIndex := by rw [h.frame]
theorem now : t.now = s.now := by rw [h.frame]
theorem device : t.device = s.device := by rw [h.frame]
theorem startCount : t.startCount = s.startCount := by rw [h.frame]
theorem configs : t.configs = s.configs := by rw [h.frame]
theorem revocations : t.revocations = s.revocations := by rw [h.frame]
theorem gatedMap : t.gatedMap = s.gatedMap := by rw [h.frame]
theorem fwd : t.fwd = s.fwd := by rw [h.frame]
theorem kst : t.kst = s.kst := by rw [h.frame]
theorem cursor : t.sch.cursor = s.sch.cursor := by rw [h.frame]
theorem tagCounter : t.sch.tagCounter = s.sch.tagCounter := by rw [h.frame]
theorem nonceCounter : t.sch.nonceCounter = s.sch.nonceCounter := by rw [h.frame]
theorem classes : t.mgt.classes = s.mgt.classes := by rw [h.frame]
theorem edits : t.mgt.edits = s.mgt.edits := by rw [h.frame]
theorem hold : t.mgt.hold = s.mgt.hold := by rw [h.frame]
theorem setup : t.mgt.setup = s.mgt.setup := by rw [h.frame]
theorem setupLock : t.mgt.setupLock = s.mgt.setupLock := by rw [h.frame]
theorem mask : t.mgt.mask = s.mgt.mask := by rw [h.frame]
theorem resetCause : t.mgt.resetCause = s.mgt.resetCause := by rw [h.frame]
theorem live : t.live = s.live := by rw [h.frame]; rfl

end

end PositionWork

/-! ### The updates -/

/-- A change of one runtime half that keeps the score in range. -/
theorem modRun_work (p : Pos) (f : Runtime → Runtime) (s : State)
    (hf : -1000 ≤ s.run[p.val].score ∧ s.run[p.val].score ≤ 1000 →
      -1000 ≤ (f s.run[p.val]).score ∧ (f s.run[p.val]).score ≤ 1000) :
    PositionWork s (modRun p f s) := by
  refine ⟨rfl, id, fun hs q => ?_⟩
  have hq := hs q
  simp only [Fin.getElem_fin, modRun_run] at hq ⊢
  split
  · next e => subst e; exact hf hq
  · exact hq

/-- A change of one runtime half that leaves the score alone. -/
theorem modRun_work_of_score (p : Pos) (f : Runtime → Runtime) (s : State) (hf : ∀ r, (f r).score = r.score := by intro r; rfl) :
    PositionWork s (modRun p f s) :=
  modRun_work p f s (by rw [hf]; exact id)

theorem setRecord_work (i : RecNo) (r : Option Record) (s : State) : PositionWork s (setRecord i r s) := ⟨rfl, id, id⟩
theorem freeRecordOf_work (p : Pos) (s : State) : PositionWork s (freeRecordOf p s) := ⟨rfl, id, id⟩
theorem latchKeyMissing_work (s : State) : PositionWork s (latchKeyMissing s) := ⟨rfl, id, id⟩
theorem latchKeyDone_work (s : State) : PositionWork s (latchKeyDone s) := ⟨rfl, id, id⟩
theorem latchNotice_work (s : State) : PositionWork s (latchNotice s) := ⟨rfl, id, id⟩
theorem latchOverrun_work (s : State) : PositionWork s (latchOverrun s) := ⟨rfl, id, id⟩
theorem recordSighting_work (p : Pos) (o : Word32) (s : State) : PositionWork s (recordSighting p o s) := ⟨rfl, id, id⟩
theorem leaveSighting_work (p : Pos) (s : State) : PositionWork s (leaveSighting p s) := ⟨rfl, id, id⟩
theorem sightings_work (l : List Sighting) (s : State) : PositionWork s { s with sightings := l } := ⟨rfl, id, id⟩
theorem queue_work (q : List Request) (s : State) : PositionWork s { s with sch.queue := q } := ⟨rfl, id, id⟩

/-! ### Notices, requests, abandonment -/

theorem addNotice_work (n : Notice) (s : State) : PositionWork s (addNotice n s) := by
  unfold addNotice
  split
  · next h =>
    have w : PositionWork s { s with mgt.notices := s.mgt.notices ++ [n] } :=
      ⟨rfl, fun _ => by simpa [Config.noticeCapacity] using h, id⟩
    dsimp only
    split
    · exact w.trans (latchNotice_work _)
    · exact w
  · exact latchOverrun_work s

theorem notifyChange_work (p : Pos) (before : Verdict) (reason : Reason) (s : State) :
    PositionWork s (notifyChange p before reason s) := by
  unfold notifyChange
  dsimp only
  split
  · exact .refl s
  · exact addNotice_work _ s

theorem ask_work (p : Pos) (kind : RequestKind) (round : Option RoundKind) (s : State) :
    PositionWork s (ask p kind round s) := by
  unfold ask
  dsimp only
  split
  · exact .refl s
  · exact (modRun_work_of_score p _ s).trans (queue_work _ _)

theorem callDue_work (p : Pos) (round : RoundKind) (s : State) : PositionWork s (callDue p round s) :=
  (modRun_work_of_score p _ s).trans (ask_work _ _ _ _)

theorem callNew_work (p : Pos) (s : State) : PositionWork s (callNew p s) :=
  (modRun_work_of_score p _ s).trans (ask_work _ _ _ _)

theorem abandon_work (p : Pos) (s : State) : PositionWork s (abandon p s) :=
  ((freeRecordOf_work p s).trans (modRun_work_of_score p _ _)).trans (queue_work _ _)

theorem endRound_work (p : Pos) (s : State) : PositionWork s (endRound p s) :=
  (freeRecordOf_work p s).trans (modRun_work_of_score p _ _)

theorem serveAll_work (f : Pos → State → State) (hf : ∀ p s, PositionWork s (f p s)) (s : State) :
    PositionWork s (serveAll f s) :=
  PositionWork.foldl f hf _ s

/-! ### Evidence -/

theorem addScore_range (c w : Int) : -1000 ≤ addScore c w ∧ addScore c w ≤ 1000 := by
  unfold addScore; omega

theorem decayScore_range {c : Int} (step : Nat) (h : -1000 ≤ c ∧ c ≤ 1000) :
    -1000 ≤ decayScore step c ∧ decayScore step c ≤ 1000 := by
  unfold decayScore; split <;> omega

theorem evaluate_work (p : Pos) (reason : Reason) (s : State) : PositionWork s (evaluate p reason s) := by
  unfold evaluate
  dsimp only
  split
  · exact .refl s
  · next e _ =>
    split
    · exact .refl s
    · have w : PositionWork s (notifyChange p s.run[p].verdict reason
          (modRun p (fun x => { x with verdict := nextVerdict e s.run[p].score s.run[p].verdict, reason := some reason }) s)) :=
        (modRun_work_of_score p _ s).trans (notifyChange_work _ _ _ _)
      split
      · exact w.trans (callDue_work _ _ _)
      · exact w

theorem addEvidence_work (p : Pos) (w : Int) (s : State) : PositionWork s (addEvidence p w s) :=
  modRun_work p _ s fun _ => addScore_range _ _

theorem force_work (p : Pos) (v : Verdict) (reason : Reason) (s : State) : PositionWork s (force p v reason s) :=
  (modRun_work_of_score p _ s).trans (notifyChange_work _ _ _ _)

theorem rollback_work (p : Pos) (s : State) : PositionWork s (rollback p s) :=
  (modRun_work p _ s (by simp)).trans (force_work _ _ _ _)

theorem recordOdometer_work (p : Pos) (e : ClassEntry) (o : Word32) (s : State) : PositionWork s (recordOdometer p e o s) :=
  (recordSighting_work p o s).trans (modRun_work_of_score p _ _)

theorem failAnswer_work (p : Pos) (e : ClassEntry) (s : State) : PositionWork s (failAnswer p e s) := by
  unfold failAnswer
  dsimp only
  split
  · exact (addEvidence_work _ _ _).trans (force_work _ _ _ _)
  · exact (addEvidence_work _ _ _).trans (evaluate_work _ _ _)

theorem passAnswer_work (p : Pos) (e : ClassEntry) (o : Word32) (s : State) : PositionWork s (passAnswer p e o s) := by
  unfold passAnswer
  dsimp only
  refine (addEvidence_work p e.wPass s).trans ?_
  split
  · exact rollback_work _ _
  · exact ((modRun_work_of_score p _ _).trans (recordOdometer_work _ _ _ _)).trans (evaluate_work _ _ _)
  · exact ((addEvidence_work _ _ _).trans (recordOdometer_work _ _ _ _)).trans (evaluate_work _ _ _)

theorem noAnswer_work (p : Pos) (s : State) : PositionWork s (noAnswer p s) := by
  unfold noAnswer
  split
  · exact .refl s
  · exact (addEvidence_work _ _ _).trans (evaluate_work _ _ _)

theorem duplicateHolder_work (q : Pos) (s : State) : PositionWork s (duplicateHolder q s) := by
  unfold duplicateHolder
  split
  · exact .refl s
  · exact (addEvidence_work _ _ _).trans (evaluate_work _ _ _)

theorem advanceDecay_work (p : Pos) (s : State) : PositionWork s (advanceDecay p s) := by
  unfold advanceDecay
  dsimp only
  split
  · split
    · exact .refl s
    · split
      · exact (modRun_work p _ s fun h => decayScore_range _ h).trans (evaluate_work _ _ _)
      · exact modRun_work_of_score p _ s
  · exact .refl s

theorem advanceSweep_work (p : Pos) (s : State) : PositionWork s (advanceSweep p s) := by
  unfold advanceSweep
  dsimp only
  split
  · exact modRun_work_of_score p _ s
  · exact .refl s

theorem advancePosition_work (p : Pos) (s : State) : PositionWork s (advancePosition p s) :=
  (advanceSweep_work p s).trans (advanceDecay_work p _)

/-! ### Positions -/

theorem removePart_work (reason : Reason) (phase : Phase) (p : Pos) (s : State) :
    PositionWork s (removePart reason phase p s) := by
  unfold removePart
  dsimp only
  have w : PositionWork s (modRun p (fun _ => { Runtime.cleared phase with reason := some reason })
      (leaveSighting p (abandon p s))) :=
    ((abandon_work p s).trans (leaveSighting_work p _)).trans
      (modRun_work p _ _ (by simp [Runtime.cleared]))
  split
  · exact w
  · exact w.trans (addNotice_work _ _)

theorem losePart_work (p : Pos) (s : State) : PositionWork s (losePart p s) := by
  unfold losePart
  split
  · exact modRun_work_of_score p _ s
  · exact removePart_work _ _ _ _

theorem completeSettling_work (p : Pos) (counter : BitVec 16) (s : State) : PositionWork s (completeSettling p counter s) :=
  (modRun_work_of_score p _ s).trans (ask_work _ _ _ _)

theorem settlePresent_work (p : Pos) (bits : BitVec 14) (counter : BitVec 16) (s : State) :
    PositionWork s (settlePresent p bits counter s) := by
  unfold settlePresent
  split
  · split
    · exact completeSettling_work _ _ _
    · exact modRun_work_of_score p _ s
  · exact modRun_work_of_score p _ s

theorem enterSettling_work (p : Pos) (bits : BitVec 14) (counter : BitVec 16) (s : State) :
    PositionWork s (enterSettling p bits counter s) :=
  (modRun_work_of_score p _ s).trans (settlePresent_work _ _ _ _)

theorem missInput_work (p : Pos) (s : State) : PositionWork s (missInput p s) := by
  unfold missInput
  split
  · exact losePart_work p s
  · exact modRun_work_of_score p _ s

theorem seatedInput_work (p : Pos) (input : Input) (s : State) : PositionWork s (seatedInput p input s) := by
  unfold seatedInput
  split
  · exact modRun_work_of_score p _ s
  · exact removePart_work _ _ _ _
  · exact missInput_work p s

theorem handleInput_work (p : Pos) (input : Input) (s : State) : PositionWork s (handleInput p input s) := by
  unfold handleInput
  split
  · exact .refl s
  · split
    · exact enterSettling_work _ _ _ _
    · exact modRun_work_of_score p _ s
    · exact missInput_work p s
  · split
    · exact settlePresent_work _ _ _ _
    · exact removePart_work _ _ _ _
    · exact missInput_work p s
  · exact seatedInput_work p input s
  · exact seatedInput_work p input s
  · exact seatedInput_work p input s
  · split
    · exact enterSettling_work _ _ _ _
    · exact modRun_work_of_score p _ s
    · exact .refl s

/-! ### Identification -/

theorem sightingStep_work (p : Pos) (id : Identity) (s : State) : PositionWork s (sightingStep p id s) :=
  ((modRun_work_of_score p _ s).trans (sightings_work _ _)).trans
    (PositionWork.foldl _ duplicateHolder_work _ _)

theorem revokeAtIdentification_work (p : Pos) (id : Identity) (s : State) :
    PositionWork s (revokeAtIdentification p id s) :=
  ((modRun_work_of_score p _ s).trans (force_work _ _ _ _)).trans (modRun_work_of_score p _ _)

theorem classStep_work (p : Pos) (id : Identity) (duplicate : Bool) (s : State) :
    PositionWork s (classStep p id duplicate s) := by
  unfold classStep
  split
  · exact (modRun_work p _ s (by simp)).trans (notifyChange_work _ _ _ _)
  · split
    · unfold classKnownDuplicate
      dsimp only
      refine PositionWork.trans ?_ (callNew_work _ _)
      split
      · exact modRun_work p _ s fun _ => addScore_range _ _
      · exact (modRun_work p _ s fun _ => addScore_range _ _).trans (notifyChange_work _ _ _ _)
    · exact (modRun_work p _ s (by simp)).trans (callNew_work _ _)

theorem identify_work (p : Pos) (id : Identity) (s : State) : PositionWork s (identify p id s) := by
  unfold identify
  dsimp only
  refine (sightingStep_work p id s).trans ?_
  split
  · exact revokeAtIdentification_work _ _ _
  · exact classStep_work _ _ _ _

theorem noTagOutcome_work (p : Pos) (s : State) : PositionWork s (noTagOutcome p s) :=
  (modRun_work_of_score p _ s).trans (notifyChange_work _ _ _ _)

/-! ### Transactions -/

theorem verify_work (i : RecNo) (rec : Record) (nonce : Nonce) (slot : SlotNo) (odo response : Word32) (s : State) :
    PositionWork s (verify i rec nonce slot odo response s) := by
  unfold verify
  dsimp only
  have missing : PositionWork s (latchKeyMissing (endRound rec.position
      (modRun rec.position (fun r => { r with keyMissing := true }) (setRecord i none s)))) :=
    (((setRecord_work i none s).trans (modRun_work_of_score _ _ _)).trans (endRound_work _ _)).trans
      (latchKeyMissing_work _)
  split
  · exact missing
  · exact missing
  · next key _ =>
    have cleared : PositionWork s (modRun rec.position (fun r => { r with keyMissing := false }) (setRecord i none s)) :=
      (setRecord_work i none s).trans (modRun_work_of_score _ _ _)
    generalize modRun rec.position _ (setRecord i none s) = u at cleared ⊢
    refine cleared.trans ?_
    split
    · split
      · split
        · exact (passAnswer_work _ _ _ u).trans (endRound_work _ _)
        · exact passAnswer_work _ _ _ u
      · split
        · exact (failAnswer_work _ _ u).trans (endRound_work _ _)
        · exact failAnswer_work _ _ u
    · exact endRound_work _ _
    · exact endRound_work _ _
    · exact endRound_work _ _

theorem verifyWaiting_work (i : RecNo) (s : State) : PositionWork s (verifyWaiting i s) := by
  unfold verifyWaiting
  split
  · exact .refl s
  · split
    · exact verify_work _ _ _ _ _ _ _
    · exact .refl s
    · exact .refl s
    · exact .refl s

theorem verifyAll_work (s : State) : PositionWork s (verifyAll s) := PositionWork.foldl _ verifyWaiting_work _ s

theorem expire_work (i : RecNo) (rec : Record) (s : State) : PositionWork s (expire i rec s) := by
  unfold expire
  split
  · exact setRecord_work _ _ _
  · split
    · exact (setRecord_work _ _ _).trans (noTagOutcome_work _ _)
    · exact ((setRecord_work _ _ _).trans (noAnswer_work _ _)).trans (endRound_work _ _)

theorem takeReply_work (r : Reply) (s : State) : PositionWork s (takeReply r s) := by
  unfold takeReply
  split
  · exact .refl s
  · split
    · exact .refl s
    · next i rec _ =>
      split
      · unfold takeNoTag
        split
        · exact expire_work _ _ _
        · exact .refl s
        · exact .refl s
      · split
        · unfold takeIdent
          split
          · exact (setRecord_work _ _ _).trans (identify_work _ _ _)
          · exact (setRecord_work _ _ _).trans (identify_work _ _ _)
          · exact .refl s
        · unfold takeAnswer
          dsimp only
          split
          · exact .refl s
          · split
            · exact setRecord_work _ _ _
            · exact verify_work _ _ _ _ _ _ _
          · split
            · exact setRecord_work _ _ _
            · exact verify_work _ _ _ _ _ _ _

theorem eraseRecord_work (page : Fin 4) (i : RecNo) (s : State) : PositionWork s (eraseRecord page i s) := by
  unfold eraseRecord
  split
  · exact .refl s
  · split
    · exact ((setRecord_work _ _ _).trans (modRun_work_of_score _ _ _)).trans (endRound_work _ _)
    · exact .refl s

theorem eraseAbandon_work (page : Fin 4) (s : State) : PositionWork s (eraseAbandon page s) :=
  PositionWork.foldl _ (eraseRecord_work page) _ s

theorem revokePosition_work (p : Pos) (s : State) : PositionWork s (revokePosition p s) :=
  ((abandon_work p s).trans (force_work _ _ _ _)).trans (modRun_work_of_score _ _ _)

theorem revokeSeated_work (e : Revocation) (s : State) : PositionWork s (revokeSeated e s) :=
  serveAll_work _ (fun p t => by
    split
    · exact revokePosition_work p t
    · exact .refl t) s

theorem serveSlot_work (slot : SlotNo) (s : State) : PositionWork s (serveSlot slot s) :=
  serveAll_work _ (fun p t => by
    split
    · unfold serveKeyMissing
      dsimp only
      split
      · exact modRun_work_of_score _ _ _
      · exact (modRun_work_of_score _ _ _).trans (callDue_work _ _ _)
    · exact .refl t) s

/-! ### The reactions to applied items -/

theorem reactConfig_work (p : Pos) (old new : PosConfig) (s : State) : PositionWork s (reactConfig p old new s) := by
  unfold reactConfig
  split
  · split
    · exact .refl s
    · exact removePart_work _ _ _ _
  · split
    · split
      · exact modRun_work p _ s (by simp [Runtime.cleared])
      · exact .refl s
    · split
      · exact modRun_work_of_score _ _ _
      · exact .refl s

theorem loseClass_work (p : Pos) (s : State) : PositionWork s (loseClass p s) := by
  unfold loseClass
  dsimp only
  refine (abandon_work p s).trans ?_
  split
  · exact modRun_work_of_score _ _ _
  · exact (modRun_work_of_score _ _ _).trans (notifyChange_work _ _ _ _)

theorem dropClass_work (i : ClassIdx) (code : Code) (s : State) : PositionWork s (dropClass i code s) :=
  serveAll_work _ (fun p t => by
    split
    · exact loseClass_work p t
    · exact .refl t) s

theorem gainClass_work (i : ClassIdx) (p : Pos) (s : State) : PositionWork s (gainClass i p s) := by
  unfold gainClass
  split
  · exact modRun_work_of_score _ _ _
  · exact (modRun_work p _ s (by simp)).trans (callNew_work _ _)

theorem addClass_work (i : ClassIdx) (code : Code) (s : State) : PositionWork s (addClass i code s) := by
  unfold addClass
  split
  · exact .refl s
  · exact serveAll_work _ (fun p t => by
      split
      · exact gainClass_work i p t
      · exact .refl t) s

theorem reevaluateClass_work (i : ClassIdx) (s : State) : PositionWork s (reevaluateClass i s) :=
  serveAll_work _ (fun p t => by
    split
    · exact evaluate_work p _ t
    · exact .refl t) s

end Sys2Proof.Machine
end

