-- ==== Sys2Proof/Laws/Boundary.lean ====
section
/-! SUPPORT. What the application of the pending edit set and the work of a cycle boundary can change: besides work at
positions, the active entries of the two staged tables, the set itself, the start count, the device state and the free
index. -/

namespace Sys2Proof.Machine

/-- `t` is `s` after work of a cycle boundary or an application of the pending edit set. -/
structure BoundaryWork (s t : State) : Prop where
  frame : t = { s with
    freeIndex := t.freeIndex, device := t.device, startCount := t.startCount, configs := t.configs, run := t.run,
    sch := { s.sch with queue := t.sch.queue, records := t.sch.records }, sightings := t.sightings,
    mgt := { s.mgt with classes := t.mgt.classes, edits := t.mgt.edits, notices := t.mgt.notices,
                        attention := t.mgt.attention } }
  notices : s.mgt.notices.length ≤ 32 → t.mgt.notices.length ≤ 32
  scores : ScoresInRange s → ScoresInRange t
  edits : t.mgt.edits = s.mgt.edits ∨ t.mgt.edits = []
  startCount : s.startCount ≤ 8 → t.startCount ≤ 8

namespace BoundaryWork

theorem refl (s : State) : BoundaryWork s s := ⟨rfl, id, id, .inl rfl, id⟩

theorem trans {s t u : State} (h : BoundaryWork s t) (k : BoundaryWork t u) : BoundaryWork s u :=
  ⟨by rw [k.frame, h.frame], fun x => k.notices (h.notices x), fun x => k.scores (h.scores x),
   k.edits.elim (fun e => e ▸ h.edits) .inr, fun x => k.startCount (h.startCount x)⟩

theorem ofPositions {s t : State} (h : PositionWork s t) : BoundaryWork s t :=
  ⟨by rw [h.frame], h.notices, h.scores, .inl h.edits, by rw [h.startCount]; exact id⟩

theorem foldl {α : Type} (f : α → State → State) (hf : ∀ a s, BoundaryWork s (f a s)) (l : List α) (s : State) :
    BoundaryWork s (l.foldl (fun t a => f a t) s) := by
  induction l generalizing s with
  | nil => exact refl s
  | cons a l ih => exact (hf a s).trans (ih _)

section
variable {s t : State} (h : BoundaryWork s t)
include h

theorem pending : t.pending = s.pending := by rw [h.frame]
theorem supply : t.supply = s.supply := by rw [h.frame]
theorem resetAsserted : t.resetAsserted = s.resetAsserted := by rw [h.frame]
theorem now : t.now = s.now := by rw [h.frame]
theorem revocations : t.revocations = s.revocations := by rw [h.frame]
theorem gatedMap : t.gatedMap = s.gatedMap := by rw [h.frame]
theorem fwd : t.fwd = s.fwd := by rw [h.frame]
theorem kst : t.kst = s.kst := by rw [h.frame]
theorem hold : t.mgt.hold = s.mgt.hold := by rw [h.frame]
theorem setup : t.mgt.setup = s.mgt.setup := by rw [h.frame]
theorem setupLock : t.mgt.setupLock = s.mgt.setupLock := by rw [h.frame]

end

end BoundaryWork

theorem handleAll_boundary (f : Pos → State → State) (hf : ∀ p s, PositionWork s (f p s)) (s : State) :
    BoundaryWork s (handleAll f s) := by
  have w := BoundaryWork.ofPositions (PositionWork.foldl f hf (positionsBy (Config.handlingRank s.freeIndex)) s)
  unfold handleAll
  dsimp only
  generalize (positionsBy (Config.handlingRank s.freeIndex)).foldl (fun t p => f p t) s = t at w ⊢
  exact ⟨by conv_lhs => rw [w.frame]
         , w.notices, w.scores, w.edits, w.startCount⟩

theorem passage_boundary (s : State) : BoundaryWork s (passage s) := by
  unfold passage
  split
  · exact ⟨rfl, id, id, .inl rfl, id⟩
  · exact .refl s

theorem replaceEntry_boundary (item : EditItem) (s : State) : BoundaryWork s (replaceEntry item s) := by
  cases item <;> exact ⟨rfl, id, id, .inl rfl, id⟩

theorem stepTwo_work (old : Vector PosConfig 48) (item : EditItem) (s : State) : PositionWork s (stepTwo old item s) := by
  cases item
  · exact reactConfig_work _ _ _ s
  · exact .refl s

theorem stepThree_work (item : EditItem) (s : State) : PositionWork s (stepThree item s) := by
  cases item
  · exact .refl s
  · exact dropClass_work _ _ s

theorem stepFour_work (item : EditItem) (s : State) : PositionWork s (stepFour item s) := by
  cases item
  · exact .refl s
  · exact addClass_work _ _ s

theorem stepFive_work (old : Vector ClassEntry 32) (item : EditItem) (s : State) : PositionWork s (stepFive old item s) := by
  cases item
  · exact .refl s
  · unfold stepFive
    dsimp only
    split
    · exact reevaluateClass_work _ s
    · exact .refl s

/-- Steps 2 to 5 of an application work at positions. -/
theorem overItems_work (f : EditItem → State → State) (hf : ∀ i s, PositionWork s (f i s)) (items : List EditItem) (s : State) :
    PositionWork s (overItems f items s) :=
  PositionWork.foldl f hf items s

theorem applyEdits_boundary (s : State) : BoundaryWork s (applyEdits s) := by
  have one : BoundaryWork s (overItems replaceEntry s.mgt.edits s) := BoundaryWork.foldl _ replaceEntry_boundary _ s
  have rest := (((overItems_work _ (stepTwo_work s.configs) s.mgt.edits (overItems replaceEntry s.mgt.edits s)).trans
    (overItems_work _ stepThree_work s.mgt.edits _)).trans (overItems_work _ stepFour_work s.mgt.edits _)).trans
    (overItems_work _ (stepFive_work s.mgt.classes) s.mgt.edits _)
  have all := one.trans (.ofPositions rest)
  unfold applyEdits
  dsimp only
  generalize overItems (stepFive s.mgt.classes) s.mgt.edits _ = t at all ⊢
  exact ⟨by conv_lhs => rw [all.frame]
         , all.notices, all.scores, .inr rfl, all.startCount⟩

/-- The set is empty after its application. -/
@[simp] theorem applyEdits_edits (s : State) : (applyEdits s).mgt.edits = [] := rfl

theorem applyEvent_boundary (s : State) : BoundaryWork s (applyEvent s) := by
  unfold applyEvent
  split
  · exact applyEdits_boundary s
  · exact .refl s

theorem applyIfStill_boundary (s : State) : BoundaryWork s (applyIfStill s) := by
  unfold applyIfStill
  split
  · exact applyEvent_boundary s
  · exact .refl s

theorem advanceAll_boundary (s : State) : BoundaryWork s (advanceAll s) := by
  unfold advanceAll
  split
  · exact .refl s
  · exact handleAll_boundary _ advancePosition_work s

theorem countStart_boundary (s : State) : BoundaryWork s (countStart s) := by
  unfold countStart
  split
  · refine BoundaryWork.trans ?_ (passage_boundary _)
    exact ⟨rfl, id, id, .inl rfl, fun _ => by simp [Config.startCycles]⟩
  · exact .refl s

theorem boundaryWork_boundary (s : State) : BoundaryWork s (boundaryWork s) := by
  unfold boundaryWork
  split
  · have w : BoundaryWork s { s with freeIndex := s.freeIndex + 1 } := ⟨rfl, id, id, .inl rfl, id⟩
    refine w.trans (BoundaryWork.trans ?_ (countStart_boundary _))
    unfold applyAndAdvance
    split
    · exact (applyEvent_boundary _).trans (advanceAll_boundary _)
    · exact (advanceAll_boundary _).trans (applyEvent_boundary _)
  · exact (advanceAll_boundary s).trans (countStart_boundary _)

theorem takeInputs_boundary (body : Bytes) (s : State) : BoundaryWork s (takeInputs body s) := by
  unfold takeInputs
  split
  · exact .refl s
  · exact handleAll_boundary _ (fun p => handleInput_work p _) s

end Sys2Proof.Machine
end

