-- ==== Sys2Proof/Laws/Bytes.lean ====
section
/-! SUPPORT. Big-endian fields read back what was written, and the entries of the writable tables read back as they are
encoded. -/

namespace Sys2Proof.Machine

/-! ### Big-endian bytes -/

@[simp] theorem be_length (n v : Nat) : (be n v).length = n := by
  induction n with
  | zero => rfl
  | succ n ih => simp [be, ih]

theorem beNat_foldl (bs : Bytes) (x : Nat) :
    bs.foldl (fun a b => a * 256 + b.toNat) x = x * 256 ^ bs.length + beNat bs := by
  induction bs generalizing x with
  | nil => simp [beNat]
  | cons b bs ih =>
    simp only [List.foldl_cons, List.length_cons, beNat, ih (x * 256 + b.toNat), ih (0 * 256 + b.toNat)]
    ring

theorem beNat_cons (b : Byte) (bs : Bytes) : beNat (b :: bs) = b.toNat * 256 ^ bs.length + beNat bs := by
  rw [beNat, List.foldl_cons, beNat_foldl]
  ring

theorem beNat_append (a b : Bytes) : beNat (a ++ b) = beNat a * 256 ^ b.length + beNat b := by
  rw [beNat, List.foldl_append, beNat_foldl]
  rfl

theorem beNat_be (n v : Nat) : beNat (be n v) = v % 256 ^ n := by
  induction n with
  | zero => simp [be, beNat, Nat.mod_one]
  | succ n ih =>
    have h : v % (256 ^ n * 256) = v % 256 ^ n + 256 ^ n * (v / 256 ^ n % 256) := Nat.mod_mul
    rw [be, beNat_cons, be_length, ih, BitVec.toNat_ofNat, show 256 ^ (n + 1) = 256 ^ n * 256 from Nat.pow_succ ..,
      show 2 ^ 8 = 256 from rfl, h, Nat.mul_comm, Nat.add_comm]

theorem beNat_be_of_lt (n v : Nat) (h : v < 256 ^ n) : beNat (be n v) = v := by
  rw [beNat_be, Nat.mod_eq_of_lt h]

theorem beNat_lt (bs : Bytes) : beNat bs < 256 ^ bs.length := by
  induction bs with
  | nil => simp [beNat]
  | cons b bs ih =>
    rw [beNat_cons, List.length_cons, Nat.pow_succ]
    have := b.isLt
    nlinarith

theorem be_beNat (bs : Bytes) : be bs.length (beNat bs) = bs := by
  have mod : ∀ (n v w : Nat), be n (w * 256 ^ n + v) = be n v := by
    intro n
    induction n with
    | zero => intro v w; rfl
    | succ n ih =>
      intro v w
      have h1 : w * 256 ^ (n + 1) + v = (w * 256) * 256 ^ n + v := by ring
      rw [be, be, h1, ih]
      congr 1
      apply BitVec.eq_of_toNat_eq
      rw [BitVec.toNat_ofNat, BitVec.toNat_ofNat, Nat.mul_comm (w * 256), Nat.mul_add_div (by positivity)]
      omega
  induction bs with
  | nil => rfl
  | cons b bs ih =>
    rw [List.length_cons, be, beNat_cons]
    have h := beNat_lt bs
    congr 1
    · apply BitVec.eq_of_toNat_eq
      rw [BitVec.toNat_ofNat, Nat.mul_comm, Nat.mul_add_div (by positivity), Nat.div_eq_of_lt h, Nat.add_zero,
        Nat.mod_eq_of_lt b.isLt]
    · rw [mod, ih]

/-! ### Fields -/

theorem field_skip (off n : Nat) (a b : Bytes) (h : a.length ≤ off) : field off n (a ++ b) = field (off - a.length) n b := by
  unfold field
  rw [List.drop_append, List.drop_of_length_le h, List.nil_append]

theorem field_inside (off n : Nat) (a b : Bytes) (h : off + n ≤ a.length) : field off n (a ++ b) = field off n a := by
  unfold field
  rw [List.drop_append_of_le_length (by omega), List.take_append_of_le_length (by simp; omega)]

theorem field_whole (n : Nat) (a : Bytes) (h : a.length = n) : field 0 n a = a := by
  unfold field
  rw [List.drop_zero, ← h, List.take_length]

theorem field_here (n : Nat) (a b : Bytes) (h : a.length = n) : field 0 n (a ++ b) = a := by
  rw [field_inside 0 n a b (by omega), field_whole n a h]

/-- A field that starts where a list of bytes begins reads the number written there. -/
theorem fieldNat_be (n v : Nat) (b : Bytes) (h : v < 256 ^ n) : fieldNat 0 n (be n v ++ b) = v := by
  unfold fieldNat
  rw [field_here n _ b (be_length n v), beNat_be_of_lt n v h]

/-- A field behind a list of bytes is read behind it. -/
theorem fieldNat_skip (off n : Nat) (a b : Bytes) (h : a.length ≤ off) :
    fieldNat off n (a ++ b) = fieldNat (off - a.length) n b := by
  unfold fieldNat
  rw [field_skip off n a b h]

theorem fieldNat_be_end (n v : Nat) (h : v < 256 ^ n) : fieldNat 0 n (be n v) = v := by
  have := fieldNat_be n v [] h
  rwa [List.append_nil] at this

/-- A signed field reads back. -/
theorem signed_back (v : Int) (h1 : -32768 ≤ v) (h2 : v ≤ 32767) : signedNat (beSigned v) = v := by
  unfold signedNat beSigned
  rw [beNat_be_of_lt 2 _ (by have := (BitVec.ofInt 16 v).isLt; omega)]
  rw [BitVec.ofNat_toNat, BitVec.setWidth_eq, BitVec.toInt_ofInt]
  simp only [Int.bmod]
  omega

end Sys2Proof.Machine
end

