-- ==== Sys2Proof/Laws/WorkAt.lean ====
section
/-! SUPPORT. Work at one position: the runtime halves, queue entries and records of the other positions stay as they are
(R7). -/

namespace Sys2Proof.Machine

/-- `t` is `s` after work at position `p` alone. -/
structure WorkAt (p : Pos) (s t : State) : Prop extends PositionWork s t where
  others : OthersKeep p s t
  entries : ∀ q : Pos, q ≠ p → hasEntry t q = hasEntry s q
  records : ∀ q : Pos, q ≠ p → hasRecord t q = hasRecord s q

namespace WorkAt

variable {p : Pos} {s t u : State}

theorem refl (p : Pos) (s : State) : WorkAt p s s := ⟨.refl s, fun _ _ => rfl, fun _ _ => rfl, fun _ _ => rfl⟩

theorem trans (h : WorkAt p s t) (k : WorkAt p t u) : WorkAt p s u :=
  ⟨h.toPositionWork.trans k.toPositionWork, fun q hq => (k.others q hq).trans (h.others q hq),
   fun q hq => (k.entries q hq).trans (h.entries q hq), fun q hq => (k.records q hq).trans (h.records q hq)⟩

/-- Work that leaves the runtime halves and the scheduler alone. -/
theorem ofWork (h : PositionWork s t) (hr : t.run = s.run) (hs : t.sch = s.sch) : WorkAt p s t :=
  ⟨h, fun q _ => by rw [hr], fun q _ => by simp [hasEntry, hs], fun q _ => by simp [hasRecord, hs]⟩

end WorkAt

theorem modRun_at (p : Pos) (f : Runtime → Runtime) (s : State) (h : PositionWork s (modRun p f s)) :
    WorkAt p s (modRun p f s) :=
  ⟨h, fun q hq => by simp [hq], fun _ _ => rfl, fun _ _ => rfl⟩

theorem modRun_at_of_score (p : Pos) (f : Runtime → Runtime) (s : State)
    (hf : ∀ r, (f r).score = r.score := by intro r; rfl) : WorkAt p s (modRun p f s) :=
  modRun_at p f s (modRun_work_of_score p f s hf)

theorem mem_enqueue (e x : Request) (q : List Request) : x ∈ enqueue e q ↔ x = e ∨ x ∈ q := by
  have split : ∀ f : Request → Bool, x ∈ q.takeWhile f ++ e :: q.dropWhile f ↔ x = e ∨ x ∈ q := by
    intro f
    conv_rhs => rw [← List.takeWhile_append_dropWhile (p := f) (l := q)]
    simp only [List.mem_append, List.mem_cons]
    tauto
  unfold enqueue
  split
  · simp [or_comm]
  · exact split _
  · exact split _

theorem hasEntry_eq (s : State) (p : Pos) : hasEntry s p = true ↔ ∃ e ∈ s.sch.queue, e.position = p := by
  simp [hasEntry]

theorem hasRecord_eq (s : State) (p : Pos) : hasRecord s p = true ↔ ∃ (i : RecNo) (r : Record),
    s.sch.records[i.val] = some r ∧ r.position = p := by
  simp only [hasRecord, List.any_eq_true, Vector.mem_toList_iff, Vector.mem_iff_getElem]
  constructor
  · rintro ⟨x, ⟨i, hi, rfl⟩, h⟩
    cases hr : s.sch.records[i] with
    | none => simp [hr] at h
    | some r => exact ⟨⟨i, hi⟩, r, hr, by simpa [hr] using h⟩
  · rintro ⟨i, r, hr, hp⟩
    exact ⟨some r, ⟨i.val, i.isLt, hr⟩, by simpa using hp⟩

theorem queue_at (p : Pos) (q : List Request) (s : State)
    (h : ∀ x : Request, x.position ≠ p → (x ∈ q ↔ x ∈ s.sch.queue)) : WorkAt p s { s with sch.queue := q } :=
  ⟨queue_work q s, fun _ _ => rfl, fun r hr => by
    rw [Bool.eq_iff_iff, hasEntry_eq, hasEntry_eq]
    constructor
    · rintro ⟨e, he, rfl⟩; exact ⟨e, (h e hr).1 he, rfl⟩
    · rintro ⟨e, he, rfl⟩; exact ⟨e, (h e hr).2 he, rfl⟩, fun _ _ => rfl⟩

theorem freeRecordOf_at (p : Pos) (s : State) : WorkAt p s (freeRecordOf p s) :=
  ⟨freeRecordOf_work p s, fun _ _ => rfl, fun _ _ => rfl, fun q hq => by
    rw [Bool.eq_iff_iff, hasRecord_eq, hasRecord_eq]
    constructor
    · rintro ⟨i, r, hr, rfl⟩
      refine ⟨i, r, ?_, rfl⟩
      simp only [freeRecordOf, Vector.getElem_map] at hr
      cases h : s.sch.records[i.val] with
      | none => simp [h] at hr
      | some x =>
        simp only [h] at hr
        split at hr
        · simp at hr
        · exact hr
    · rintro ⟨i, r, hr, rfl⟩
      exact ⟨i, r, by simp [freeRecordOf, hr, hq], rfl⟩⟩

theorem addNotice_run (n : Notice) (s : State) : (addNotice n s).run = s.run := by
  unfold addNotice; dsimp only; split <;> [split; skip] <;> rfl

theorem addNotice_sch (n : Notice) (s : State) : (addNotice n s).sch = s.sch := by
  unfold addNotice; dsimp only; split <;> [split; skip] <;> rfl

theorem addNotice_sightings (n : Notice) (s : State) : (addNotice n s).sightings = s.sightings := by
  unfold addNotice; dsimp only; split <;> [split; skip] <;> rfl

/-- What offering a notice does to the notice queue and the flags (R171). -/
theorem addNotice_queue (n : Notice) (s : State) :
    (addNotice n s).mgt.notices = queueAfterNotice s.mgt.notices n ∧
      (addNotice n s).mgt.attention = flagsAfterNotice s.mgt.notices.length s.mgt.attention := by
  unfold addNotice queueAfterNotice flagsAfterNotice
  dsimp only
  by_cases h : s.mgt.notices.length < 32
  · rw [if_pos (by simpa [Config.noticeCapacity] using h), if_pos h]
    cases hn : s.mgt.notices with
    | nil => simp [latchNotice]
    | cons a l => rw [hn] at h; simp_all
  · rw [if_neg (by simpa [Config.noticeCapacity] using h), if_neg h, if_neg (by omega : ¬ s.mgt.notices.length = 0), if_neg h]
    exact ⟨rfl, rfl⟩

theorem addNotice_at (p : Pos) (n : Notice) (s : State) : WorkAt p s (addNotice n s) :=
  .ofWork (addNotice_work n s) (addNotice_run n s) (addNotice_sch n s)

theorem notifyChange_at (p q : Pos) (before : Verdict) (reason : Reason) (s : State) :
    WorkAt p s (notifyChange q before reason s) := by
  unfold notifyChange
  dsimp only
  split
  · exact .refl p s
  · exact addNotice_at p _ s

theorem notifyChange_run (p : Pos) (before : Verdict) (reason : Reason) (s : State) :
    (notifyChange p before reason s).run = s.run := by
  unfold notifyChange; dsimp only; split
  · rfl
  · exact addNotice_run _ s

theorem notifyChange_sch (p : Pos) (before : Verdict) (reason : Reason) (s : State) :
    (notifyChange p before reason s).sch = s.sch := by
  unfold notifyChange; dsimp only; split
  · rfl
  · exact addNotice_sch _ s

theorem notifyChange_sightings (p : Pos) (before : Verdict) (reason : Reason) (s : State) :
    (notifyChange p before reason s).sightings = s.sightings := by
  unfold notifyChange; dsimp only; split
  · rfl
  · exact addNotice_sightings _ s

theorem ask_at (p : Pos) (kind : RequestKind) (round : Option RoundKind) (s : State) : WorkAt p s (ask p kind round s) := by
  unfold ask
  dsimp only
  split
  · exact .refl p s
  · refine (modRun_at_of_score p _ s).trans (queue_at p _ _ fun x hx => ?_)
    rw [mem_enqueue]
    constructor
    · rintro (rfl | h)
      · exact absurd rfl hx
      · exact h
    · exact .inr

/-- An ask for a position with neither entry nor record is queued, and sets pending request and round kind (R57). -/
theorem ask_queued (p : Pos) (kind : RequestKind) (round : Option RoundKind) (s : State) (he : hasEntry s p = false)
    (hr : hasRecord s p = false) :
    ask p kind round s =
      let t := modRun p (fun r => { r with pendingRequest := some kind, roundKind := round.getD r.roundKind }) s
      { t with sch.queue := enqueue { position := p, kind } t.sch.queue } := by
  simp [ask, he, hr]

theorem callDue_at (p : Pos) (round : RoundKind) (s : State) : WorkAt p s (callDue p round s) :=
  (modRun_at_of_score p _ s).trans (ask_at _ _ _ _)

theorem callNew_at (p : Pos) (s : State) : WorkAt p s (callNew p s) :=
  (modRun_at_of_score p _ s).trans (ask_at _ _ _ _)

theorem abandon_at (p : Pos) (s : State) : WorkAt p s (abandon p s) :=
  ((freeRecordOf_at p s).trans (modRun_at_of_score p _ _)).trans
    (queue_at p _ _ fun x hx => by simp [hx])

theorem endRound_at (p : Pos) (s : State) : WorkAt p s (endRound p s) :=
  (freeRecordOf_at p s).trans (modRun_at_of_score p _ _)

theorem evaluate_at (p : Pos) (reason : Reason) (s : State) : WorkAt p s (evaluate p reason s) := by
  unfold evaluate
  dsimp only
  split
  · exact .refl p s
  · next e _ =>
    split
    · exact .refl p s
    · have w : WorkAt p s (notifyChange p s.run[p].verdict reason
          (modRun p (fun x => { x with verdict := nextVerdict e s.run[p].score s.run[p].verdict, reason := some reason }) s)) :=
        (modRun_at_of_score p _ s).trans (notifyChange_at _ _ _ _ _)
      split
      · exact w.trans (callDue_at _ _ _)
      · exact w

theorem addEvidence_at (p : Pos) (w : Int) (s : State) : WorkAt p s (addEvidence p w s) :=
  modRun_at p _ s (addEvidence_work p w s)

theorem force_at (p : Pos) (v : Verdict) (reason : Reason) (s : State) : WorkAt p s (force p v reason s) :=
  (modRun_at_of_score p _ s).trans (notifyChange_at _ _ _ _ _)

theorem advanceDecay_at (p : Pos) (s : State) : WorkAt p s (advanceDecay p s) := by
  unfold advanceDecay
  dsimp only
  split
  · split
    · exact .refl p s
    · split
      · exact (modRun_at p _ s (modRun_work p _ s fun h => decayScore_range _ h)).trans (evaluate_at _ _ _)
      · exact modRun_at_of_score p _ s
  · exact .refl p s

theorem advanceSweep_at (p : Pos) (s : State) : WorkAt p s (advanceSweep p s) := by
  unfold advanceSweep
  dsimp only
  split
  · exact modRun_at_of_score p _ s
  · exact .refl p s

theorem advancePosition_at (p : Pos) (s : State) : WorkAt p s (advancePosition p s) :=
  (advanceSweep_at p s).trans (advanceDecay_at p _)

theorem leaveSighting_at (p q : Pos) (s : State) : WorkAt p s (leaveSighting q s) :=
  .ofWork (leaveSighting_work q s) rfl rfl

theorem removePart_at (reason : Reason) (phase : Phase) (p : Pos) (s : State) : WorkAt p s (removePart reason phase p s) := by
  unfold removePart
  dsimp only
  have w : WorkAt p s (modRun p (fun _ => { Runtime.cleared phase with reason := some reason })
      (leaveSighting p (abandon p s))) :=
    ((abandon_at p s).trans (leaveSighting_at p p _)).trans
      (modRun_at p _ _ (modRun_work p _ _ (by simp [Runtime.cleared])))
  split
  · exact w
  · exact w.trans (addNotice_at p _ _)

theorem losePart_at (p : Pos) (s : State) : WorkAt p s (losePart p s) := by
  unfold losePart
  split
  · exact modRun_at_of_score p _ s
  · exact removePart_at _ _ _ _

theorem completeSettling_at (p : Pos) (counter : BitVec 16) (s : State) : WorkAt p s (completeSettling p counter s) :=
  (modRun_at_of_score p _ s).trans (ask_at _ _ _ _)

theorem settlePresent_at (p : Pos) (bits : BitVec 14) (counter : BitVec 16) (s : State) :
    WorkAt p s (settlePresent p bits counter s) := by
  unfold settlePresent
  split
  · split
    · exact completeSettling_at _ _ _
    · exact modRun_at_of_score p _ s
  · exact modRun_at_of_score p _ s

theorem missInput_at (p : Pos) (s : State) : WorkAt p s (missInput p s) := by
  unfold missInput
  split
  · exact losePart_at p s
  · exact modRun_at_of_score p _ s

theorem seatedInput_at (p : Pos) (input : Input) (s : State) : WorkAt p s (seatedInput p input s) := by
  unfold seatedInput
  split
  · exact modRun_at_of_score p _ s
  · exact removePart_at _ _ _ _
  · exact missInput_at p s

theorem enterSettling_at (p : Pos) (bits : BitVec 14) (counter : BitVec 16) (s : State) :
    WorkAt p s (enterSettling p bits counter s) :=
  (modRun_at_of_score p _ s).trans (settlePresent_at _ _ _ _)

theorem handleInput_at (p : Pos) (input : Input) (s : State) : WorkAt p s (handleInput p input s) := by
  unfold handleInput
  split
  · exact .refl p s
  · split
    · exact enterSettling_at _ _ _ _
    · exact modRun_at_of_score p _ s
    · exact missInput_at p s
  · split
    · exact settlePresent_at _ _ _ _
    · exact removePart_at _ _ _ _
    · exact missInput_at p s
  · exact seatedInput_at p input s
  · exact seatedInput_at p input s
  · exact seatedInput_at p input s
  · split
    · exact enterSettling_at _ _ _ _
    · exact modRun_at_of_score p _ s
    · exact .refl p s

end Sys2Proof.Machine
end

