-- ==== Sys2Proof/Laws/PositionSpec.lean ====
section
/-! SUPPORT. What each operation of the position controller does, case by case: settling, misses, losses, removal and the
entry into SETTLING. -/

namespace Sys2Proof.Machine

theorem modRun_modRun (p : Pos) (f g : Runtime → Runtime) (s : State) :
    modRun p g (modRun p f s) = modRun p (fun r => g (f r)) s := by
  simp [modRun]

/-! ### The watch condition and the sighting cache -/

theorem watchHolds_iff (c : PosConfig) (b : BitVec 14) : watchHolds c b = true ↔ WatchTrue c b := by
  unfold watchHolds WatchTrue
  cases hf : c.watchForm
  · simp only [beq_iff_eq, decide_true]
    constructor
    · intro h i hi hm
      have := congrArg (fun v => v.getLsbD i) h
      simpa [hm] using this
    · intro h
      apply BitVec.eq_of_getLsbD_eq
      intro i hi
      simp only [BitVec.getLsbD_and]
      cases hm : c.watchMask.getLsbD i
      · simp
      · simp [h i hi hm]
  · simp only [beq_iff_eq, reduceCtorEq, decide_false]
    constructor
    · intro h i hi hm
      have := congrArg (fun v => v.getLsbD i) h
      simpa [hm] using this
    · intro h
      apply BitVec.eq_of_getLsbD_eq
      intro i hi
      simp only [BitVec.getLsbD_and]
      cases hm : c.watchMask.getLsbD i
      · simp
      · simp [h i hi hm]

theorem touchFirst_none (test : Sighting → Bool) (f : Sighting → Sighting) (l : List Sighting)
    (h : ∀ e ∈ l, test e = false) : touchFirst test f l = l := by
  unfold touchFirst
  have : l.find? test = none := by simpa using h
  rw [this]

theorem touchFirst_some (test : Sighting → Bool) (f : Sighting → Sighting) (l : List Sighting) (e : Sighting)
    (r : List Sighting) (h : ∀ x ∈ l, test x = false) (he : test e = true) :
    touchFirst test f (l ++ e :: r) = f e :: (l ++ r) := by
  unfold touchFirst
  have h1 : (l ++ e :: r).find? test = some e := by
    rw [List.find?_append, List.find?_eq_none.2 (by simpa using h), Option.none_or, List.find?_cons, he]
  have h2 : (l ++ e :: r).eraseP test = l ++ r := by
    rw [List.eraseP_append_right _ (by simpa using h), List.eraseP_cons_of_pos he]
  rw [h1, h2]

/-! ### Abandonment and removal -/

theorem freeRecordOf_kept (p : Pos) (s : State) (i : RecNo) (r : Record) (h : s.sch.records[i] = some r) :
    (freeRecordOf p s).sch.records[i] = if r.position = p then none else some r := by
  simp only [Fin.getElem_fin] at h
  simp [freeRecordOf, h]

theorem freeRecordOf_free (p : Pos) (s : State) (i : RecNo) (h : s.sch.records[i] = none) :
    (freeRecordOf p s).sch.records[i] = none := by
  simp only [Fin.getElem_fin] at h
  simp [freeRecordOf, h]

theorem removePart_silent (reason : Reason) (phase : Phase) (p : Pos) (s : State) (h : s.run[p].verdict = .none) :
    removePart reason phase p s =
      modRun p (fun _ => { Runtime.cleared phase with reason := some reason }) (leaveSighting p (abandon p s)) := by
  unfold removePart
  dsimp only
  rw [if_pos h]

theorem removePart_notice (reason : Reason) (phase : Phase) (p : Pos) (s : State) (h : s.run[p].verdict ≠ .none) :
    removePart reason phase p s =
      addNotice (noticeFor p s.run[p].verdict .none reason s.run[p].identity 0
          (modRun p (fun _ => { Runtime.cleared phase with reason := some reason }) (leaveSighting p (abandon p s))))
        (modRun p (fun _ => { Runtime.cleared phase with reason := some reason }) (leaveSighting p (abandon p s))) := by
  unfold removePart
  dsimp only
  rw [if_neg h]

theorem removePart_parts (reason : Reason) (phase : Phase) (p : Pos) (s : State) :
    let u := modRun p (fun _ => { Runtime.cleared phase with reason := some reason }) (leaveSighting p (abandon p s))
    (removePart reason phase p s).run = u.run ∧ (removePart reason phase p s).sch = u.sch ∧
      (removePart reason phase p s).sightings = u.sightings := by
  by_cases h : s.run[p].verdict = .none
  · rw [removePart_silent _ _ _ _ h]
    exact ⟨rfl, rfl, rfl⟩
  · rw [removePart_notice _ _ _ _ h]
    exact ⟨addNotice_run _ _, addNotice_sch _ _, addNotice_sightings _ _⟩

theorem removePart_removed (reason : Reason) (phase : Phase) (p : Pos) (s : State) :
    PartRemoved p reason phase s (removePart reason phase p s) := by
  have w := removePart_at reason phase p s
  obtain ⟨kr, ks, kg⟩ := removePart_parts reason phase p s
  refine ⟨?_, w.others, ?_, ?_, ?_, ?_, ?_, ?_, ?_, w.frame⟩
  · rw [kr]; simp
  · rw [ks]
    refine List.filter_congr (fun e _ => ?_)
    by_cases h : e.position = p <;> simp [h]
  · intro i r hr
    rw [ks]
    exact freeRecordOf_kept p s i r hr
  · intro i hr
    rw [ks]
    exact freeRecordOf_free p s i hr
  · intro h
    rw [kg]
    exact touchFirst_none _ _ _ (fun e he => by simpa [Sighting.heldBy] using h e he)
  · intro l e r hs hl he
    rw [kg]
    simp only [modRun_sightings, leaveSighting, abandon, freeRecordOf_sightings, hs]
    rw [touchFirst_some _ _ _ _ _ (fun e he => by simpa [Sighting.heldBy] using hl e he)
      (by simpa [Sighting.heldBy] using he)]
    simp [bne]
    congr 1
  · intro hv
    rw [removePart_silent _ _ _ _ hv]
    exact ⟨rfl, rfl⟩
  · intro hv
    rw [removePart_notice _ _ _ _ hv]
    obtain ⟨hq, ha⟩ := addNotice_queue (noticeFor p s.run[p].verdict .none reason s.run[p].identity 0
          (modRun p (fun _ => { Runtime.cleared phase with reason := some reason }) (leaveSighting p (abandon p s))))
        (modRun p (fun _ => { Runtime.cleared phase with reason := some reason }) (leaveSighting p (abandon p s)))
    rw [hq, ha]
    refine ⟨?_, rfl⟩
    show queueAfterNotice s.mgt.notices _ = _
    congr 1
    simp only [noticeFor]
    cases s.run[p].identity <;> rfl

theorem losePart_vacant (p : Pos) (s : State) (h : s.run[p].phase = .vacant) :
    losePart p s = modRun p (fun r => { r with phase := .lost, lossCount := 0 }) s := if_pos h

theorem losePart_part (p : Pos) (s : State) (h : s.run[p].phase ≠ .vacant) : losePart p s = removePart .lost .lost p s :=
  if_neg h

theorem missInput_low (p : Pos) (s : State) (h : s.run[p].lossCount + 1 < s.mgt.setup.lostCycles) :
    missInput p s = modRun p (fun r => { r with lossCount := r.lossCount + 1,
                                                settleCount := if r.phase = .settling then 0 else r.settleCount }) s :=
  if_neg (by omega)

theorem missInput_reached (p : Pos) (s : State) (h : s.mgt.setup.lostCycles ≤ s.run[p].lossCount + 1) :
    missInput p s = losePart p s := if_pos h

/-! ### Settling -/

theorem settlePresent_off (p : Pos) (b : BitVec 14) (c : BitVec 16) (s : State) (h : ¬ WatchTrue s.configs[p] b) :
    settlePresent p b c s = modRun p (fun r => { r with settleCount := 0, lossCount := 0 }) s :=
  if_neg (fun x => h ((watchHolds_iff _ _).1 x))

theorem settlePresent_early (p : Pos) (b : BitVec 14) (c : BitVec 16) (s : State) (h : WatchTrue s.configs[p] b)
    (hc : s.run[p].settleCount + 1 < s.configs[p].settleCycles) :
    settlePresent p b c s = modRun p (fun r => { r with settleCount := r.settleCount + 1, lossCount := 0 }) s := by
  unfold settlePresent
  rw [if_pos ((watchHolds_iff _ _).2 h), if_neg (by omega)]

theorem settlePresent_last (p : Pos) (b : BitVec 14) (c : BitVec 16) (s : State) (h : WatchTrue s.configs[p] b)
    (hc : s.configs[p].settleCycles ≤ s.run[p].settleCount + 1) : settlePresent p b c s = completeSettling p c s := by
  unfold settlePresent
  rw [if_pos ((watchHolds_iff _ _).2 h), if_pos hc]

theorem enterSettling_early (p : Pos) (b : BitVec 14) (c : BitVec 16) (s : State) (h : WatchTrue s.configs[p] b)
    (hc : 1 < s.configs[p].settleCycles) :
    enterSettling p b c s =
      modRun p (fun r => { r with phase := .settling, settleCount := 1, lossCount := 0,
                                  released := if r.phase = .lost then false else r.released }) s := by
  unfold enterSettling
  generalize hu : modRun p _ s = u
  have hc' : u.run[p].settleCount + 1 < u.configs[p].settleCycles := by
    subst hu; rw [Fin.getElem_fin, modRun_run_self]; exact hc
  rw [settlePresent_early p b c u (by subst hu; exact h) hc', ← hu, modRun_modRun]

theorem enterSettling_off (p : Pos) (b : BitVec 14) (c : BitVec 16) (s : State) (h : ¬ WatchTrue s.configs[p] b) :
    enterSettling p b c s =
      modRun p (fun r => { r with phase := .settling, settleCount := 0, lossCount := 0,
                                  released := if r.phase = .lost then false else r.released }) s := by
  unfold enterSettling
  generalize hu : modRun p _ s = u
  rw [settlePresent_off p b c u (by subst hu; exact h), ← hu, modRun_modRun]

theorem hasEntry_of_unasked (s : State) (p : Pos) (h : Unasked s p) : hasEntry s p = false := by
  rw [← Bool.not_eq_true, hasEntry_eq]
  rintro ⟨e, he, hp⟩
  exact h.1 e he hp

theorem hasRecord_of_unasked (s : State) (p : Pos) (h : Unasked s p) : hasRecord s p = false := by
  rw [← Bool.not_eq_true, hasRecord_eq]
  rintro ⟨i, r, hr, hp⟩
  exact h.2 i r hr hp

theorem ask_called (p : Pos) (f : Runtime → Runtime) (kind : RequestKind) (round : Option RoundKind) (s : State)
    (h : Unasked s p) :
    ask p kind round (modRun p f s) =
      { modRun p (fun r => { f r with pendingRequest := some kind, roundKind := round.getD (f r).roundKind }) s with
        sch := { s.sch with queue := enqueue { position := p, kind } s.sch.queue } } := by
  have h1 : hasEntry (modRun p f s) p = false := hasEntry_of_unasked s p h
  have h2 : hasRecord (modRun p f s) p = false := hasRecord_of_unasked s p h
  unfold ask
  rw [h1, h2]
  simp only [Bool.or_false, Bool.false_eq_true, if_false, modRun_modRun]
  rfl

theorem takeWhile_groups {urgent due : List Request} (h1 : ∀ e ∈ urgent, e.kind ≠ .due) (h2 : ∀ e ∈ due, e.kind = .due) :
    (urgent ++ due).takeWhile (fun x => x.kind != .due) = urgent ∧
      (urgent ++ due).dropWhile (fun x => x.kind != .due) = due := by
  have hd : due.takeWhile (fun x => x.kind != .due) = [] ∧ due.dropWhile (fun x => x.kind != .due) = due := by
    cases due with
    | nil => simp
    | cons a l => simp [h2 a (by simp)]
  have hu : ∀ e ∈ urgent, (e.kind != .due) = true := by simpa using h1
  exact ⟨by rw [List.takeWhile_append_of_pos hu, hd.1, List.append_nil],
    by rw [List.dropWhile_append_of_pos hu, hd.2]⟩

theorem enqueue_urgent {q urgent due : List Request} (e : Request) (h : QueueGroups q urgent due) (hk : e.kind ≠ .due) :
    enqueue e q = urgent ++ [e] ++ due := by
  have := takeWhile_groups h.2.1 h.2.2
  rcases e with ⟨p, k⟩
  cases k
  · simp only [enqueue, h.1, this.1, this.2, List.append_assoc, List.singleton_append]
  · simp only [enqueue, h.1, this.1, this.2, List.append_assoc, List.singleton_append]
  · exact absurd rfl hk

end Sys2Proof.Machine
end

