-- ==== Sys2Proof/Laws/Independent.lean ====
section
/-! SUPPORT. Work at one position reads only that position's own part of the state, so that a return or a boundary may take the
positions in any order (R7, R25). -/

namespace Sys2Proof.Machine

/-- Two states agree on what the work at position `p` reads. -/
structure SameAt (p : Pos) (s t : State) : Prop where
  run : t.run[p] = s.run[p]
  config : t.configs[p] = s.configs[p]
  classes : t.mgt.classes = s.mgt.classes
  setup : t.mgt.setup = s.mgt.setup
  entry : hasEntry t p = hasEntry s p
  record : hasRecord t p = hasRecord s p

namespace SameAt

variable {p : Pos} {s t u : State}

theorem refl (p : Pos) (s : State) : SameAt p s s := ⟨rfl, rfl, rfl, rfl, rfl, rfl⟩

theorem trans (h : SameAt p s t) (k : SameAt p t u) : SameAt p s u :=
  ⟨k.run.trans h.run, k.config.trans h.config, k.classes.trans h.classes, k.setup.trans h.setup, k.entry.trans h.entry,
   k.record.trans h.record⟩

theorem symm (h : SameAt p s t) : SameAt p t s :=
  ⟨h.run.symm, h.config.symm, h.classes.symm, h.setup.symm, h.entry.symm, h.record.symm⟩

/-- Work at another position leaves what the work at `p` reads. -/
theorem of_work {q : Pos} (h : WorkAt q s t) (hq : p ≠ q) : SameAt p s t :=
  ⟨h.others p hq, by rw [h.configs], by rw [h.frame], by rw [h.frame], h.entries p hq, h.records p hq⟩

theorem classOf_eq (h : SameAt p s t) : classOf t t.run[p] = classOf s s.run[p] := by
  unfold classOf
  rw [h.run, h.classes]

end SameAt

theorem modRun_same {p : Pos} {s t : State} (f g : Runtime → Runtime) (h : SameAt p s t)
    (hf : g s.run[p] = f s.run[p]) : SameAt p (modRun p f s) (modRun p g t) :=
  ⟨by simp only [Fin.getElem_fin, modRun_run_self]
      have := h.run
      simp only [Fin.getElem_fin] at this hf
      rw [this, hf], h.config, h.classes, h.setup, h.entry, h.record⟩

theorem ask_run (p : Pos) (kind : RequestKind) (round : Option RoundKind) (s : State) :
    (ask p kind round s).run = if hasEntry s p || hasRecord s p then s.run
      else (modRun p (fun r => { r with pendingRequest := some kind, roundKind := round.getD r.roundKind }) s).run := by
  unfold ask
  split <;> rfl

theorem ask_same {p : Pos} {s t : State} (kind : RequestKind) (round : Option RoundKind) (h : SameAt p s t) :
    (ask p kind round t).run[p] = (ask p kind round s).run[p] := by
  rw [ask_run, ask_run, h.entry, h.record]
  split
  · exact h.run
  · exact (modRun_same _ _ h rfl).run

theorem evaluate_same {p : Pos} {s t : State} (reason : Reason) (h : SameAt p s t) :
    (evaluate p reason t).run[p] = (evaluate p reason s).run[p] := by
  unfold evaluate
  dsimp only
  rw [h.classOf_eq, h.run]
  cases classOf s s.run[p] with
  | none => exact h.run
  | some e =>
    dsimp only
    split
    · exact h.run
    · have key : ∀ u : State, (notifyChange p s.run[p].verdict reason u).run[p] = u.run[p] := fun u => by
        rw [notifyChange_run]
      have hs : SameAt p (notifyChange p s.run[p].verdict reason (modRun p (fun x => { x with
            verdict := nextVerdict e s.run[p].score s.run[p].verdict, reason := some reason }) s))
          (notifyChange p s.run[p].verdict reason (modRun p (fun x => { x with
            verdict := nextVerdict e s.run[p].score s.run[p].verdict, reason := some reason }) t)) := by
        have a := modRun_same (fun x => { x with
            verdict := nextVerdict e s.run[p].score s.run[p].verdict, reason := some reason }) (fun x => { x with
            verdict := nextVerdict e s.run[p].score s.run[p].verdict, reason := some reason }) h rfl
        have w1 := notifyChange_work p s.run[p].verdict reason (modRun p (fun x => { x with
            verdict := nextVerdict e s.run[p].score s.run[p].verdict, reason := some reason }) s)
        have w2 := notifyChange_work p s.run[p].verdict reason (modRun p (fun x => { x with
            verdict := nextVerdict e s.run[p].score s.run[p].verdict, reason := some reason }) t)
        refine ⟨?_, ?_, ?_, ?_, ?_, ?_⟩
        · rw [key, key]; exact a.run
        · rw [w1.configs, w2.configs]; exact a.config
        · rw [w1.frame, w2.frame]; exact a.classes
        · rw [w1.frame, w2.frame]; exact a.setup
        · simp only [hasEntry, notifyChange_sch]; exact a.entry
        · simp only [hasRecord, notifyChange_sch]; exact a.record
      split
      · exact ask_same _ _ (modRun_same _ _ hs rfl)
      · exact hs.run

theorem removePart_same {p : Pos} {s t : State} (reason : Reason) (phase : Phase) :
    (removePart reason phase p t).run[p] = (removePart reason phase p s).run[p] := by
  rw [(removePart_removed reason phase p t).run, (removePart_removed reason phase p s).run]

theorem losePart_same {p : Pos} {s t : State} (h : SameAt p s t) : (losePart p t).run[p] = (losePart p s).run[p] := by
  by_cases hv : s.run[p].phase = .vacant
  · rw [losePart_vacant p s hv, losePart_vacant p t (by rw [h.run]; exact hv)]
    exact (modRun_same _ _ h rfl).run
  · rw [losePart_part p s hv, losePart_part p t (by rw [h.run]; exact hv)]
    exact removePart_same _ _

theorem missInput_same {p : Pos} {s t : State} (h : SameAt p s t) : (missInput p t).run[p] = (missInput p s).run[p] := by
  by_cases hc : s.mgt.setup.lostCycles ≤ s.run[p].lossCount + 1
  · rw [missInput_reached p s hc, missInput_reached p t (by rw [h.run, h.setup]; exact hc)]
    exact losePart_same h
  · rw [missInput_low p s (by omega), missInput_low p t (by rw [h.run, h.setup]; omega)]
    exact (modRun_same _ _ h rfl).run

theorem settlePresent_same {p : Pos} {s t : State} (b : BitVec 14) (c : BitVec 16) (h : SameAt p s t) :
    (settlePresent p b c t).run[p] = (settlePresent p b c s).run[p] := by
  unfold settlePresent
  rw [h.run, h.config]
  split
  · split
    · exact ask_same _ _ (modRun_same _ _ h rfl)
    · exact (modRun_same _ _ h rfl).run
  · exact (modRun_same _ _ h rfl).run

theorem seatedInput_same {p : Pos} {s t : State} (i : Input) (h : SameAt p s t) :
    (seatedInput p i t).run[p] = (seatedInput p i s).run[p] := by
  cases i with
  | present b c =>
    refine (modRun_same _ _ h ?_).run
    unfold strokeCapOf
    have := h.classOf_eq
    unfold classOf at this ⊢
    rw [h.run] at this
    rw [this, h.setup]
  | absent => exact removePart_same _ _
  | missing => exact missInput_same h

theorem handleInput_same {p : Pos} {s t : State} (i : Input) (h : SameAt p s t) :
    (handleInput p i t).run[p] = (handleInput p i s).run[p] := by
  unfold handleInput
  rw [h.run]
  cases s.run[p].phase <;> dsimp only
  · exact h.run
  · cases i <;> dsimp only
    · exact settlePresent_same _ _ (modRun_same _ _ h rfl)
    · exact (modRun_same _ _ h rfl).run
    · exact missInput_same h
  · cases i <;> dsimp only
    · exact settlePresent_same _ _ h
    · exact removePart_same _ _
    · exact missInput_same h
  · exact seatedInput_same i h
  · exact seatedInput_same i h
  · exact seatedInput_same i h
  · cases i <;> dsimp only
    · exact settlePresent_same _ _ (modRun_same _ _ h rfl)
    · exact (modRun_same _ _ h rfl).run
    · exact h.run

theorem advanceSweep_same {p : Pos} {s t : State} (h : SameAt p s t) : SameAt p (advanceSweep p s) (advanceSweep p t) := by
  unfold advanceSweep
  dsimp only
  rw [h.run]
  split
  · exact modRun_same _ _ h rfl
  · exact h

theorem advanceDecay_same {p : Pos} {s t : State} (h : SameAt p s t) :
    (advanceDecay p t).run[p] = (advanceDecay p s).run[p] := by
  unfold advanceDecay
  dsimp only
  rw [h.classOf_eq, h.run]
  split
  · cases classOf s s.run[p] with
    | none => exact h.run
    | some e =>
      dsimp only
      split
      · exact evaluate_same _ (modRun_same _ _ h rfl)
      · exact (modRun_same _ _ h rfl).run
  · exact h.run

theorem advancePosition_same {p : Pos} {s t : State} (h : SameAt p s t) :
    (advancePosition p t).run[p] = (advancePosition p s).run[p] := advanceDecay_same (advanceSweep_same h)

/-! ### Every position once, in any order -/

theorem foldl_other (f : Pos → State → State) (hf : ∀ p s, WorkAt p s (f p s)) (p : Pos) (l : List Pos) (s : State)
    (hp : p ∉ l) : SameAt p s (l.foldl (fun t q => f q t) s) := by
  induction l generalizing s with
  | nil => exact .refl p s
  | cons q l ih =>
    simp only [List.mem_cons, not_or] at hp
    exact (SameAt.of_work (hf q s) hp.1).trans (ih (f q s) hp.2)

theorem foldl_once (f : Pos → State → State) (hf : ∀ p s, WorkAt p s (f p s))
    (hs : ∀ p s t, SameAt p s t → (f p t).run[p] = (f p s).run[p]) (p : Pos) (l : List Pos) (s : State) (hp : p ∈ l)
    (hd : l.Nodup) : (l.foldl (fun t q => f q t) s).run[p] = (f p s).run[p] := by
  induction l generalizing s with
  | nil => exact absurd hp List.not_mem_nil
  | cons q l ih =>
    obtain ⟨hq, hl⟩ := List.nodup_cons.1 hd
    by_cases e : p = q
    · subst e
      exact (foldl_other f hf p l (f p s) hq).run
    · have hm : p ∈ l := by
        rcases List.mem_cons.1 hp with h | h
        · exact absurd h e
        · exact h
      rw [List.foldl_cons, ih (f q s) hm hl]
      exact hs p s (f q s) (SameAt.of_work (hf q s) e)

theorem positionsBy_nodup (rank : Pos → Nat) : (positionsBy rank).Nodup :=
  (List.perm_insertionSort _ _).nodup_iff.2 (List.nodup_finRange 48)

theorem mem_positionsBy (rank : Pos → Nat) (p : Pos) : p ∈ positionsBy rank :=
  (List.perm_insertionSort _ _).mem_iff.2 (List.mem_finRange p)

theorem handleAll_run (f : Pos → State → State) (hf : ∀ p s, WorkAt p s (f p s))
    (hs : ∀ p s t, SameAt p s t → (f p t).run[p] = (f p s).run[p]) (p : Pos) (s : State) :
    (handleAll f s).run[p] = (f p s).run[p] := by
  have h := foldl_once f hf hs p (positionsBy (Config.handlingRank s.freeIndex)) s (mem_positionsBy _ p) (positionsBy_nodup _)
  unfold handleAll
  dsimp only
  exact h

theorem takeInputs_run (body : Bytes) (s : State) (h : s.device = .running) (p : Pos) :
    (takeInputs body s).run[p] = (handleInput p (inputOf body p) s).run[p] := by
  unfold takeInputs
  rw [h]
  exact handleAll_run (fun p t => handleInput p (inputOf body p) t) (fun p s => handleInput_at p _ s)
    (fun _ _ _ h => handleInput_same _ h) p s

theorem advanceAll_run (s : State) (h : s.device = .running) (p : Pos) :
    (advanceAll s).run[p] = (advancePosition p s).run[p] := by
  unfold advanceAll
  rw [h]
  exact handleAll_run advancePosition advancePosition_at (fun _ _ _ h => advancePosition_same h) p s

end Sys2Proof.Machine
end

