-- ==== Sys2Proof/Laws/Layout.lean ====
section
/-! SUPPORT. The entries of the writable tables and of the revocation requests read back as they are encoded. -/

namespace Sys2Proof.Machine

theorem watchForm_code_le (w : WatchForm) : w.code ≤ 1 := by cases w <;> decide

theorem gateAction_back (a : GateAction) : gateActionOf a.code = some a := by cases a <;> rfl

theorem gateAction_code_le (a : GateAction) : a.code ≤ 2 := by cases a <;> decide

theorem encodeConfig_length (c : PosConfig) : (encodeConfig c).length = 8 := by simp [encodeConfig]

theorem encodeClass_length (e : ClassEntry) : (encodeClass e).length = 48 := by
  unfold encodeClass beSigned
  iterate 26 rw [List.length_append]
  iterate 27 rw [be_length]

theorem encodeSetup_length (p : Setup) : (encodeSetup p).length = 16 := by simp [encodeSetup]

theorem encodeRevocation_length (e : Revocation) : (encodeRevocation e).length = 12 := by
  unfold encodeRevocation
  cases e.scope <;> simp

theorem encodeNotice_length (n : Notice) : (encodeNotice n).length = 16 := by simp [encodeNotice, beSigned]

theorem encodeRuntime_length (r : Runtime) : (encodeRuntime r).length = 32 := by
  unfold encodeRuntime
  cases r.identity <;> cases r.odoRef <;> simp [beSigned]

theorem encodeSighting_length (e : Option Sighting) : (encodeSighting e).length = 24 := by
  cases e <;> simp [encodeSighting, positionSet]

theorem encodeRevocationView_length (e : Option Revocation) : (encodeRevocationView e).length = 12 := by
  cases e with
  | none => simp [encodeRevocationView]
  | some e => exact encodeRevocation_length e

theorem encodeDevice_length (c : ResetCause) (k : KeyStore) : (encodeDevice c k).length = 16 := by simp [encodeDevice]

theorem encodeKeyStatus_length (k : KeyStore) : (encodeKeyStatus k).length = 80 := by
  unfold encodeKeyStatus
  rw [List.length_flatMap]
  simp

theorem decodeConfig_encode (size : Nat) (c : PosConfig) (h : ConfigFits size c) (hs : size ≤ 8) :
    decodeConfig size (encodeConfig c) = some c := by
  obtain ⟨enabled, settle, form, mask, offset, length, clamp⟩ := c
  obtain ⟨h1, h2, h3⟩ := h
  dsimp only at h1 h2 h3
  have hm := mask.isLt
  have e : fieldNat 0 1 (encodeConfig ⟨enabled, settle, form, mask, offset, length, clamp⟩) = (if enabled then 1 else 0) ∧
      fieldNat 1 1 (encodeConfig ⟨enabled, settle, form, mask, offset, length, clamp⟩) = settle ∧
      fieldNat 2 1 (encodeConfig ⟨enabled, settle, form, mask, offset, length, clamp⟩) = form.code ∧
      fieldNat 3 1 (encodeConfig ⟨enabled, settle, form, mask, offset, length, clamp⟩) = offset ∧
      fieldNat 4 2 (encodeConfig ⟨enabled, settle, form, mask, offset, length, clamp⟩) = mask.toNat ∧
      fieldNat 6 1 (encodeConfig ⟨enabled, settle, form, mask, offset, length, clamp⟩) = length ∧
      fieldNat 7 1 (encodeConfig ⟨enabled, settle, form, mask, offset, length, clamp⟩) =
        (match clamp with
          | none => 0
          | some o => 128 + o) := by
    simp only [encodeConfig, List.append_assoc]
    refine ⟨?_, ?_, ?_, ?_, ?_, ?_, ?_⟩
    · rw [fieldNat_be]; cases enabled <;> simp
    · rw [fieldNat_skip _ _ _ _ (by simp), be_length, fieldNat_be]; omega
    · rw [fieldNat_skip _ _ _ _ (by simp), be_length, fieldNat_skip _ _ _ _ (by simp), be_length, fieldNat_be]
      have := watchForm_code_le form; omega
    · iterate 3 rw [fieldNat_skip _ _ _ _ (by simp), be_length]
      rw [fieldNat_be]; omega
    · iterate 4 rw [fieldNat_skip _ _ _ _ (by simp), be_length]
      rw [fieldNat_be]; omega
    · iterate 5 rw [fieldNat_skip _ _ _ _ (by simp), be_length]
      rw [fieldNat_be]; omega
    · iterate 6 rw [fieldNat_skip _ _ _ _ (by simp), be_length]
      rw [fieldNat_be_end]
      · cases clamp <;> rfl
      · cases clamp with
        | none => simp
        | some o => have := h3 o rfl; dsimp only; omega
  obtain ⟨e0, e1, e2, e3, e4, e5, e6⟩ := e
  unfold decodeConfig
  dsimp only
  rw [e0, e1, e2, e3, e4, e5, e6, if_pos]
  · cases enabled <;> cases form <;> cases clamp <;> simp [WatchForm.code]
  · refine ⟨by cases enabled <;> decide, watchForm_code_le form, by omega, by omega, h2.1, h2.2.1, h2.2.2, ?_⟩
    cases clamp with
    | none => exact .inl rfl
    | some o => have := h3 o rfl; right; dsimp only; omega

theorem decodeSetup_encode (p : Setup) (h : SetupFits p) : decodeSetup (encodeSetup p) = some p := by
  obtain ⟨a, b, c, d, e, f, g, u, v, w⟩ := p
  obtain ⟨h1, h2, h3, h4, h5⟩ := h
  dsimp only at h1 h2 h3 h4 h5
  have k : fieldNat 0 1 (encodeSetup ⟨a, b, c, d, e, f, g, u, v, w⟩) = a ∧
      fieldNat 1 1 (encodeSetup ⟨a, b, c, d, e, f, g, u, v, w⟩) = b ∧
      fieldNat 2 1 (encodeSetup ⟨a, b, c, d, e, f, g, u, v, w⟩) = c ∧
      fieldNat 3 1 (encodeSetup ⟨a, b, c, d, e, f, g, u, v, w⟩) = d ∧
      fieldNat 4 2 (encodeSetup ⟨a, b, c, d, e, f, g, u, v, w⟩) = e ∧
      fieldNat 6 1 (encodeSetup ⟨a, b, c, d, e, f, g, u, v, w⟩) = f ∧
      fieldNat 7 1 (encodeSetup ⟨a, b, c, d, e, f, g, u, v, w⟩) = u.code ∧
      fieldNat 8 2 (encodeSetup ⟨a, b, c, d, e, f, g, u, v, w⟩) = g ∧
      fieldNat 10 2 (encodeSetup ⟨a, b, c, d, e, f, g, u, v, w⟩) = v ∧
      fieldNat 12 1 (encodeSetup ⟨a, b, c, d, e, f, g, u, v, w⟩) = w ∧
      fieldNat 13 3 (encodeSetup ⟨a, b, c, d, e, f, g, u, v, w⟩) = 0 := by
    simp only [encodeSetup, List.append_assoc]
    refine ⟨?_, ?_, ?_, ?_, ?_, ?_, ?_, ?_, ?_, ?_, ?_⟩
    · rw [fieldNat_be]; omega
    · iterate 1 rw [fieldNat_skip _ _ _ _ (by simp), be_length]
      rw [fieldNat_be]; omega
    · iterate 2 rw [fieldNat_skip _ _ _ _ (by simp), be_length]
      rw [fieldNat_be]; omega
    · iterate 3 rw [fieldNat_skip _ _ _ _ (by simp), be_length]
      rw [fieldNat_be]; omega
    · iterate 4 rw [fieldNat_skip _ _ _ _ (by simp), be_length]
      rw [fieldNat_be]; omega
    · iterate 5 rw [fieldNat_skip _ _ _ _ (by simp), be_length]
      rw [fieldNat_be]; omega
    · iterate 6 rw [fieldNat_skip _ _ _ _ (by simp), be_length]
      rw [fieldNat_be]; have := gateAction_code_le u; omega
    · iterate 7 rw [fieldNat_skip _ _ _ _ (by simp), be_length]
      rw [fieldNat_be]; omega
    · iterate 8 rw [fieldNat_skip _ _ _ _ (by simp), be_length]
      rw [fieldNat_be]; omega
    · iterate 9 rw [fieldNat_skip _ _ _ _ (by simp), be_length]
      rw [fieldNat_be]; omega
    · iterate 10 rw [fieldNat_skip _ _ _ _ (by simp), be_length]
      rw [fieldNat_be_end]; omega
  obtain ⟨k0, k1, k2, k3, k4, k5, k6, k7, k8, k9, k10⟩ := k
  unfold decodeSetup
  rw [k0, k1, k2, k3, k4, k5, k6, k7, k8, k9, k10, gateAction_back]
  dsimp only
  rw [if_pos]
  refine ⟨?_, rfl⟩
  simp only [Setup.inRange, Bool.and_eq_true, decide_eq_true_eq]
  omega

theorem decodeRevocation_encode (e : Revocation) (h1 : e.cls ≠ 0) (h2 : e.cls ≠ 0xFFFF) :
    decodeRevocation (encodeRevocation e) = some e := by
  obtain ⟨cls, lot, scope⟩ := e
  dsimp only at h1 h2
  have hc := cls.isLt
  have hl := lot.isLt
  have n0 : cls.toNat ≠ 0 := fun x => h1 (BitVec.eq_of_toNat_eq x)
  have n1 : cls.toNat ≠ 65535 := fun x => h2 (BitVec.eq_of_toNat_eq x)
  have k : fieldNat 0 2 (encodeRevocation ⟨cls, lot, scope⟩) = cls.toNat ∧
      fieldNat 2 3 (encodeRevocation ⟨cls, lot, scope⟩) = lot.toNat := by
    unfold encodeRevocation
    simp only [List.append_assoc]
    refine ⟨by rw [fieldNat_be]; omega, ?_⟩
    rw [fieldNat_skip _ _ _ _ (by simp), be_length, fieldNat_be]
    omega
  cases scope with
  | wholeLot =>
    have k5 : fieldNat 5 1 (encodeRevocation ⟨cls, lot, .wholeLot⟩) = 0 ∧
        fieldNat 6 6 (encodeRevocation ⟨cls, lot, .wholeLot⟩) = 0 := by
      unfold encodeRevocation
      simp only [List.append_assoc]
      constructor
      · iterate 2 rw [fieldNat_skip _ _ _ _ (by simp), be_length]
        rw [fieldNat_be]; decide
      · iterate 3 rw [fieldNat_skip _ _ _ _ (by simp), be_length]
        rw [fieldNat_be_end]; decide
    unfold decodeRevocation
    rw [k.1, k.2, k5.1, k5.2]
    dsimp only
    rw [if_neg (by omega)]
    simp
  | serial x =>
    have hx := x.isLt
    have k5 : fieldNat 5 1 (encodeRevocation ⟨cls, lot, .serial x⟩) = 1 ∧
        fieldNat 6 6 (encodeRevocation ⟨cls, lot, .serial x⟩) = x.toNat := by
      unfold encodeRevocation
      simp only [List.append_assoc]
      constructor
      · iterate 2 rw [fieldNat_skip _ _ _ _ (by simp), be_length]
        rw [fieldNat_be]; decide
      · iterate 3 rw [fieldNat_skip _ _ _ _ (by simp), be_length]
        rw [fieldNat_be_end]; omega
    unfold decodeRevocation
    rw [k.1, k.2, k5.1, k5.2]
    dsimp only
    rw [if_neg (by omega)]
    simp

end Sys2Proof.Machine
end

