-- ==== Sys2Proof/WellFormed.lean ====
section
/-! DEFINITION. Which commands spell an event of their own row. `exec` is total all the same: an ill-formed command is what its
bytes say on the port they arrive on (LOG 12). -/

namespace Sys2Proof

/-- A telegram's kind is taken on a port (R131). -/
def kindTaken (port : Port) (bytes : Bytes) : Bool :=
  match port, bytes with
  | _, [] => false
  | .u, kind :: _ => kind == Machine.kindCycle || kind == Machine.kindService
  | .d, kind :: _ => kind == Machine.kindCycleReturn || kind == Machine.kindService

/-- A node byte names a node 1 to 48 (08, Service telegram). -/
def isNode (node : Byte) : Bool := 1 ≤ node.toNat && node.toNat ≤ 48

/-- The command spells an event of its own row. -/
def Instr.wellFormed (i : Instr) : Bool :=
  match i with
  | .telegramWrongKind port bytes => !kindTaken port bytes
  | .tagWrite node _ => isNode node
  | .ident node _ => isNode node
  | .answer node _ => isNode node
  | .noTag node _ => isNode node
  | .unknownRequest code _ => !Machine.managementCodes.contains code && !Machine.isReplyCode code
  | .por => true
  | .powerLoss => true
  | .resetAssert => true
  | .pinReset => true
  | .lineReset _ => true
  | .cycle _ _ => true
  | .decayStep _ => true
  | .passageToRunning => true
  | .cycleTelegramSend => true
  | .cycleReturn _ => true
  | .settlingComplete _ _ => true
  | .lossProcessing _ => true
  | .stillTimeout => true
  | .gapOpportunity => true
  | .stillTurn => true
  | .portUTransmit => true
  | .masterNodeRequest _ => true
  | .nodeReplyForward _ => true
  | .deadlineExpiry _ => true
  | .readEntries _ => true
  | .writeEntries _ => true
  | .hold _ => true
  | .releaseHold _ => true
  | .discardStaged _ => true
  | .noticeDrain _ => true
  | .attentionRead _ => true
  | .attentionMask _ => true
  | .positionRelease _ => true
  | .positionRechallenge _ => true
  | .revokeInsert _ => true
  | .revokeRemove _ => true
  | .revokeClear _ => true
  | .keyProgram _ => true
  | .keyErase _ => true
  | .keyProtect _ => true
  | .programCompletion _ => true
  | .eraseCompletion _ => true
  | .protectCompletion => true
  | .epochUpdateCompletion => true

end Sys2Proof
end

