-- ==== Sys2Proof/Tests/Slice0.lean ====
section
/-! SUPPORT. Named tests: each check of well-formedness, worked examples of the manual, small steps of the commands, and a witness
for the hypotheses of every statement that has some. -/

namespace Sys2Proof.Tests

open Sys2Proof Sys2Proof.Machine

set_option Elab.async false

/-! ### Helpers -/

/-- The state a command leads to. -/
def ran (c : Instr) (s : State) : State :=
  match exec c s with
  | .next t => t
  | .fault _ => s
  | .refused _ => s

/-- A frame whose length byte and check sequence are right for a node, an origin and a code. -/
def goodFrame (node origin code tag : Byte) (payload : Bytes) : Frame :=
  { tag, length := BitVec.ofNat 8 payload.length, payload,
    check := checkRegister ([0x03, node, origin, tag, code, BitVec.ofNat 8 payload.length] ++ payload) }

/-- A request to node 0 with tag 5. -/
def request (code : Byte) (payload : Bytes) : Frame := goodFrame 0x00 0x00 code 5 payload

/-- A class of the manual's jaw: code 0x0214, key slot 2, repeat 1. -/
def jaw : ClassEntry :=
  { ClassEntry.empty with
    code := 0x0214, keySlot := 2, repeatCount := 1, strokeCap := 6, policyCf := .block, policyPending := .clamp,
    policyWorn := .clamp, clampValue := 1024, wPass := 150, wOdoOk := 50, wFail := -400, wNoAnswer := -30, wDup := -300,
    wAhead := -200, lagRate := 5, slack := 8, lagCap := 900, odoTol := 20, decayStep := 4, tGen := 500, tCf := -500,
    hyst := 100, decayPeriod := 100, sweepPeriod := 200 }

/-- The identity of the manual's jaw. -/
def jawId : Identity := { serial := 0x00A13C472B10, cls := 0x0214, lot := 0x00311F }

/-- A part that has reached RUNNING with the jaw's class at index 0 and an idle key store. -/
def base : State :=
  { State.reset with
    device := .running, startCount := 8,
    mgt := { Mgt.initial .power with setupLock := true, classes := (Vector.replicate 32 ClassEntry.empty).set 0 jaw },
    kst := { State.reset.kst with op := .idle, epoch := 7 } }

/-- A state with one position's runtime half replaced. -/
def atPos (p : Pos) (r : Runtime) (s : State) : State := modRun p (fun _ => r) s

/-- A state with its line CYCLING. -/
def cycling (s : State) : State := { s with fwd := { s.fwd with lineState := .cycling } }

/-- A state with staged items. -/
def staged (items : List EditItem) (s : State) : State := { s with mgt := { s.mgt with edits := items } }

/-- A HELD part of the jaw's class. -/
def heldJaw : Runtime :=
  { Runtime.cleared .held with identity := some jawId, classIndex := some 0, verdict := .genuine, score := 540 }

/-- A telegram's bytes after its kind byte, closed with their check sequence. -/
def closed (kind : Byte) (bytes : Bytes) : Bytes := (withCheck (kind :: bytes)).drop 1

/-- A cycle telegram or return after its kind byte: cycle number 0x1234, slots of zero bytes but for those given first. -/
def slotsBody (kind count size : Byte) (slots : Bytes) : Bytes :=
  closed kind ([0x12, 0x34, count, size] ++ slots ++ List.replicate (count.toNat * size.toNat - slots.length) 0)

/-- The tests of R144 as one check. -/
def testsPass (bytes : Bytes) : Bool :=
  8 ≤ bytes.length && checkRegister bytes == 0 && bytes.length == 8 + (bytes.getD 5 0).toNat && (bytes.getD 5 0).toNat ≤ 240 &&
    (bytes.getD 2 0 == 0x00 || bytes.getD 2 0 == 0x01) && (bytes.getD 3 0).toNat ≤ 15 && (bytes.getD 1 0).toNat ≤ 48

theorem serviceTests_of {bytes : Bytes} (h : testsPass bytes = true) : ServiceTests bytes := by
  simp only [testsPass, Bool.and_eq_true, Bool.or_eq_true, decide_eq_true_eq, beq_iff_eq] at h
  obtain ⟨⟨⟨⟨⟨⟨h1, h2⟩, h3⟩, h4⟩, h5⟩, h6⟩, h7⟩ := h
  exact ⟨h1, h2, h3, h4, h5, h6, h7⟩

theorem arrives_of {s : State} {f : Frame} {code : Byte} (h : s.live = true)
    (g : testsPass (f.telegram 0x00 0x00 code) = true) : Arrives s f code := ⟨h, serviceTests_of g⟩

theorem asks_of {s : State} {f : Frame} {code : Byte} {payload : Bytes} (h : s.live = true)
    (g : testsPass (f.telegram 0x00 0x00 code) = true) (k : f.payload = payload) : Asks s f code payload :=
  ⟨arrives_of h g, k⟩

/-- The tests of R133 and R134 as one check. -/
def cyclePasses (framing : Framing) (body : Bytes) : Bool :=
  checkRegister (0x01 :: body) == 0 && 4 ≤ body.length &&
    body.length + 1 == 5 + (body.getD 2 0).toNat * (body.getD 3 0).toNat + 2 &&
    1 ≤ (body.getD 2 0).toNat && (body.getD 2 0).toNat ≤ 64 &&
    ((framing != .long && body.getD 3 0 == 4) || (framing != .short && body.getD 3 0 == 8))

theorem cycleTests_iff {framing : Framing} {body : Bytes} : CycleTests framing body ↔ cyclePasses framing body = true := by
  simp only [cyclePasses, Bool.and_eq_true, Bool.or_eq_true, decide_eq_true_eq, beq_iff_eq, bne_iff_ne]
  constructor
  · rintro ⟨h1, h2, h3, h4, h5⟩
    exact ⟨⟨⟨⟨⟨h1, h2⟩, h3⟩, h4.1⟩, h4.2⟩, h5⟩
  · rintro ⟨⟨⟨⟨⟨h1, h2⟩, h3⟩, h4⟩, h4'⟩, h5⟩
    exact ⟨h1, h2, h3, ⟨h4, h4'⟩, h5⟩

theorem returnTests_of {e : Expectation} {body : Bytes}
    (h : (checkRegister (0x02 :: body) == 0 && 4 ≤ body.length && body.length + 1 == 5 + e.slotCount * e.slotSize + 2 &&
      e.cycleNumber.toNat == (body.getD 0 0).toNat * 256 + (body.getD 1 0).toNat && e.slotCount == (body.getD 2 0).toNat &&
      e.slotSize == (body.getD 3 0).toNat) = true) : ReturnTests e body := by
  simp only [Bool.and_eq_true, decide_eq_true_eq, beq_iff_eq] at h
  obtain ⟨⟨⟨⟨⟨h1, h2⟩, h3⟩, h4⟩, h5⟩, h6⟩ := h
  exact ⟨h1, h2, h3, h4, h5, h6⟩

theorem unasked_of {s : State} {p : Pos} (h : (hasEntry s p || hasRecord s p) = false) : Unasked s p := by
  simp only [Bool.or_eq_false_iff, hasEntry, hasRecord, List.any_eq_false, beq_iff_eq] at h
  refine ⟨h.1, fun i r hr hp => ?_⟩
  have m : s.sch.records[i] ∈ s.sch.records.toList := by simp
  exact h.2 _ m (by rw [hr]; simpa using hp)

/-- Tags and positions of the records in use stand apart, and the tags are 1 to 15. -/
def recordsApart (s : State) : Bool :=
  (List.finRange 4).all (fun i => (List.finRange 4).all (fun j => match s.sch.records[i], s.sch.records[j] with
    | some a, some b => i == j || (a.tag != b.tag && a.position != b.position)
    | _, _ => true)) &&
  (List.finRange 4).all (fun i => match s.sch.records[i] with
    | some a => 1 ≤ a.tag && a.tag ≤ 15
    | none => true)

theorem distinct_of {s : State} (h : recordsApart s = true) : RecordsDistinct s := by
  simp only [recordsApart, Bool.and_eq_true, List.all_eq_true, List.mem_finRange, true_implies] at h
  constructor
  · intro i j a b hi hj hab
    have := h.1 i j
    rw [hi, hj] at this
    simp only [Bool.or_eq_true, beq_iff_eq, Bool.and_eq_true, bne_iff_ne] at this
    rcases this with r | ⟨x, y⟩
    · exact r
    · exact absurd hab (by rintro (z | z) <;> contradiction)
  · intro i a hi
    have := h.2 i
    rw [hi] at this
    simpa using this

theorem resending_iff {s : State} {i : RecNo} {n : Nat} : Resending s i n ↔ resendOrder s i = some n := by
  unfold Resending resendOrder
  constructor
  · rintro ⟨r, h, e⟩; rw [h]; dsimp only; rw [e]
  · intro h
    split at h
    · cases h
    · next r hr => exact ⟨r, hr, by split at h <;> simp_all⟩

theorem awaiting_iff {s : State} {i : RecNo} {n : Nat} : AwaitingKey s i n ↔ arrivalOrder s i = some n := by
  unfold AwaitingKey arrivalOrder
  constructor
  · rintro ⟨r, o, x, h, e⟩; rw [h]; dsimp only; rw [e]
  · intro h
    split at h
    · cases h
    · next r hr => split at h <;> simp_all

/-! ### Commands that do not spell an event of their row, one for each check of well-formedness -/

theorem test_wellFormed_refuses_taken_kind_u : (Instr.telegramWrongKind .u [0x01, 0x00]).wellFormed = false := by decide
theorem test_wellFormed_refuses_taken_kind_d : (Instr.telegramWrongKind .d [0x03]).wellFormed = false := by decide
theorem test_wellFormed_takes_wrong_kind : (Instr.telegramWrongKind .u [0x02]).wellFormed = true := by decide
theorem test_wellFormed_refuses_tagWrite_node_0 :
    (Instr.tagWrite 0 { tag := 1, length := 0, payload := [], check := 0 }).wellFormed = false := by decide
theorem test_wellFormed_refuses_ident_node_49 :
    (Instr.ident 49 { tag := 1, length := 0, payload := [], check := 0 }).wellFormed = false := by decide
theorem test_wellFormed_refuses_answer_node_0 :
    (Instr.answer 0 { tag := 1, length := 0, payload := [], check := 0 }).wellFormed = false := by decide
theorem test_wellFormed_refuses_noTag_node_255 :
    (Instr.noTag 255 { tag := 1, length := 0, payload := [], check := 0 }).wellFormed = false := by decide
theorem test_wellFormed_refuses_known_request :
    (Instr.unknownRequest 0x42 { tag := 1, length := 0, payload := [], check := 0 }).wellFormed = false := by decide
theorem test_wellFormed_refuses_reply_code :
    (Instr.unknownRequest 0x80 { tag := 1, length := 0, payload := [], check := 0 }).wellFormed = false := by decide

/-- No row of spec/opcode_table.json gives bits. -/
theorem test_no_word_spells_a_command : decodeTableWord 8 0x42 = none := by decide

/-! ### Worked values of the manual -/

/-- R132: the check sequence over 0x31 to 0x39. -/
theorem test_check_sequence : checkRegister [0x31, 0x32, 0x33, 0x34, 0x35, 0x36, 0x37, 0x38, 0x39] = 0x29B1 := by
  decide +kernel

/-- The class of 02, Odometer tests at a glance, and its reference. -/
def glance (o : Nat) : OdoFinding := laterFinding jaw { odo := 1000000, strokes := 100 } 5220 o

theorem test_glance_ok_below : glance 1005000 = .later jaw.wOdoOk .odoOk := by decide +kernel
theorem test_glance_ok_above : glance 1005300 = .later jaw.wOdoOk .odoOk := by decide +kernel
theorem test_glance_ahead : glance 1005301 = .later jaw.wAhead .ahead := by decide +kernel
theorem test_glance_lag : glance 1004900 = .later (-200) .lag := by decide +kernel
theorem test_glance_capped : glance 1000000 = .later (-900) .lag := by decide +kernel
theorem test_glance_rollback : odoFinding jaw (some { odo := 1000000, strokes := 100 }) none 5220 999999 = .rolledBack := by
  decide +kernel

/-- 04, Example: the words of one challenge (nonce 7:41, the jaw's identity, odometer 1,204,388). -/
theorem test_message_words (key : Key) :
    responseWord key 0x0000000700000029 jawId 0x001260A4 =
      foldWord key 0x00000007 0x00000029 0x00A13C47 0x2B100214 0x001260A4 0x0000311F := by
  have a : (0x0000000700000029 : Nonce).extractLsb' 32 32 = 7 := by decide
  have b : (0x0000000700000029 : Nonce).extractLsb' 0 32 = 0x29 := by decide
  have c : jawId.serial.extractLsb' 16 32 = 0x00A13C47 := by decide
  have d : (jawId.serial.extractLsb' 0 16 ++ jawId.cls : Word32) = 0x2B100214 := by decide
  have e : jawId.lot.zeroExtend 32 = (0x0000311F : Word32) := by decide
  unfold responseWord
  rw [a, b, c, d, e]

/-- R87: the key of sixteen zero bytes has check value 0. -/
theorem test_zero_key : checkValue (.programmed 0) = 0 := by decide +kernel

/-- The fields of 07, Example: one telegram through GATE. -/
def gateOf (offset length : Nat) (clamp : Option Nat) : PosConfig :=
  { PosConfig.default with gateOffset := offset, gateLength := length, clampOffset := clamp }

theorem test_gate_position_7 :
    rewriteSlot .short (gateOf 0 1 (some 2)) .clamp 1024 [0x11, 0x00, 0x08, 0x00] = [0x11, 0x00, 0x04, 0x00] := by decide +kernel
theorem test_gate_position_12 :
    rewriteSlot .short (gateOf 0 1 none) .clamp 1024 [0x37, 0x00, 0x09, 0x60] = [0x00, 0x00, 0x09, 0x60] := by decide +kernel
theorem test_gate_position_20 :
    rewriteSlot .short (gateOf 0 1 (some 2)) .block 1024 [0x37, 0x01, 0x07, 0xD0] = [0x00, 0x01, 0x00, 0x00] := by decide +kernel
theorem test_gate_position_25 :
    rewriteSlot .short (gateOf 0 1 (some 2)) .clamp 256 [0x21, 0x00, 0x00, 0x50] = [0x21, 0x00, 0x00, 0x50] := by decide +kernel
theorem test_gate_position_40 :
    rewriteSlot .short (gateOf 4 2 (some 5)) .clamp 256 [0x05, 0x3C, 0x12, 0x34] = [0x00, 0x00, 0x00, 0x00] := by decide +kernel
theorem test_gate_position_44 :
    rewriteSlot .short (gateOf 1 2 none) .block 0 [0x40, 0x7F, 0x7F, 0x01] = [0x40, 0x00, 0x00, 0x01] := by decide +kernel

/-- 07, Example: a worn GENUINE part is held to policy_worn, a released one passes, and one without a class is blocked. -/
theorem test_action_worn : gateAction (atPos 6 { heldJaw with worn := true } base) 6 = .clamp := by decide +kernel
theorem test_action_released :
    gateAction (atPos 30 { heldJaw with verdict := .counterfeit, released := true } base) 30 = .pass := by decide +kernel
theorem test_action_without_class :
    gateAction (atPos 43 { heldJaw with verdict := .counterfeit, classIndex := none } base) 43 = .block := by decide +kernel

/-- R30, R44: the thresholds with their hysteresis at the jaw's t_gen 500, t_cf -500 and hyst 100. -/
theorem test_verdict_holds_at_400 : nextVerdict jaw 400 .genuine = .genuine := by decide
theorem test_verdict_falls_at_399 : nextVerdict jaw 399 .genuine = .undecided := by decide

/-- 06, Example: the whole-lot entry takes index 1. -/
theorem test_revocation_index :
    revocationIndex { cls := 0x0214, lot := 0x00311F, scope := .wholeLot }
      [{ cls := 0x0214, lot := 0x002A00, scope := .wholeLot },
       { cls := 0x0214, lot := 0x00311F, scope := .serial 0x00A13C472B11 },
       { cls := 0x0301, lot := 0x000150, scope := .serial 0x000000400007 },
       { cls := 0x0530, lot := 0x001000, scope := .wholeLot }] = 1 := by decide +kernel

/-- 05, Example: position 40 joins the entry that position 9 holds, which moves to the front. -/
theorem test_sighting_joins :
    sight 39 0x0301 2
      [{ cls := 0x0301, serial := 5, lastOdo := none, holders := [30] },
       { cls := 0x0301, serial := 2, lastOdo := some 88120, holders := [8] }] =
      [{ cls := 0x0301, serial := 2, lastOdo := some 88120, holders := [8, 39] },
       { cls := 0x0301, serial := 5, lastOdo := none, holders := [30] }] := by decide +kernel

/-- 01, Example, returns 8 and 9: the stroke counter wraps modulo 65536. -/
theorem test_strokes_wrap :
    (countStrokes 8 4 { Runtime.cleared .identifying with strokes := 2, prevStroke := 65535 }).strokes = 7 := by decide

/-- 01, Example, return 10: a delta of 11 counts as the cap 6 and sets stroke_jump. -/
theorem test_stroke_cap :
    let r := countStrokes 6 15 { Runtime.cleared .challenging with strokes := 7, prevStroke := 4 }
    r.strokes = 13 ∧ r.strokeJump = true := by decide

/-- R48: a negative score rises toward 0 and does not cross it. -/
theorem test_decay_stops_at_zero : decayScore 4 (-3) = 0 ∧ decayScore 4 700 = 696 := by decide

/-! ### One step of each command -/

/-- The part after a reset, ready for traffic, with a telegram waiting on each side of port D. -/
def busy : State :=
  { base with fwd := { base.fwd with
      lineState := .cycling, stillTimer := some 3, masterQueue := [[1], [2]], gap := some { used := 0, slots := 6, verifierSlots := 2 } } }

theorem test_por_starts_the_epoch_update :
    let t := ran .por { base with now := 100 }
    t.device = .starting ∧ t.mgt.resetCause = .power ∧ t.kst.op = .epochUpdate 104 := by decide +kernel
theorem test_power_loss_breaks_off : (ran .powerLoss { busy with fwd := { busy.fwd with dSending := some [1] } }).fwd.dSending = none := by
  decide +kernel
theorem test_reset_assert_makes_faulty :
    (ran .resetAssert { base with kst := { base.kst with op := .programming 9 1 50 } }).kst.slots[9] = .faulty := by
  decide +kernel
theorem test_pin_reset_cause : (ran .pinReset { base with resetAsserted := true }).mgt.resetCause = .pin := by decide +kernel
theorem test_line_reset_keeps_classes :
    let t := ran (.lineReset (request 0x70 [])) base
    t.mgt.classes[0] = jaw ∧ t.mgt.setupLock = true ∧ t.device = .starting ∧ t.mgt.resetCause = .line := by decide +kernel
theorem test_cycle_counts_to_eight :
    let t := ran (.cycle (slotsBody 0x01 2 4 []) true) { base with device := .starting, startCount := 7 }
    t.startCount = 8 ∧ t.device = .running ∧ t.fwd.framing = .short ∧ t.fwd.cycleCount = 1 := by decide +kernel
theorem test_cycle_gates_the_slot :
    (ran (.cycle (slotsBody 0x01 1 4 [0x37, 1, 7, 0xD0]) true) { base with device := .starting, startCount := 0 }).fwd.dSending =
      some (withCheck [0x01, 0x12, 0x34, 1, 4, 0, 1, 7, 0xD0]) := by decide +kernel
theorem test_decay_step :
    let t := ran (.decayStep 6) (atPos 6 { heldJaw with decayCount := 99 } (cycling base))
    t.run[6].score = 536 ∧ t.run[6].decayCount = 0 := by decide +kernel
theorem test_no_decay_step_while_still :
    ran (.decayStep 6) (atPos 6 { heldJaw with decayCount := 99 } base) = atPos 6 { heldJaw with decayCount := 99 } base := by
  decide +kernel
theorem test_passage : (ran .passageToRunning { base with device := .starting }).device = .running := by decide +kernel
theorem test_cycle_telegram_send :
    (ran .cycleTelegramSend { base with fwd := { base.fwd with
      dWaiting := some { bytes := [7], expectation := { cycleNumber := 1, slotCount := 1, slotSize := 4 } } } }).fwd.dSending =
      some [7] := by decide +kernel
theorem test_cycle_return_unpaired :
    ((ran (.cycleReturn [1, 2, 3]) base).fwd.uSending.map (fun u => u.bytes.take 3)) = some [0x02, 1, 14] := by decide +kernel
theorem test_settling_complete :
    let t := ran (.settlingComplete 6 65533) (atPos 6 { Runtime.cleared .settling with settleCount := 15 } base)
    t.run[6].phase = .identifying ∧ t.run[6].prevStroke = 65533 ∧ t.sch.queue = [{ position := 6, kind := .ident }] := by
  decide +kernel
theorem test_loss_processing :
    let t := ran (.lossProcessing 6) (atPos 6 { heldJaw with lossCount := 7 } base)
    t.run[6].phase = .lost ∧ t.run[6].reason = some .lost ∧ t.mgt.notices.length = 1 := by decide +kernel
theorem test_still_timeout :
    (ran .stillTimeout { busy with fwd := { busy.fwd with stillTimer := some 50 } }).fwd.lineState = .still := by decide +kernel
theorem test_gap_serves_master_first : (ran .gapOpportunity busy).fwd.dSending = some [1] := by decide +kernel
theorem test_gap_leaves_verifier_its_slots :
    let t := ran .gapOpportunity (atPos 6 { Runtime.cleared .identifying with pendingRequest := some .ident }
      { busy with sch := { busy.sch with queue := [{ position := 6, kind := .ident }] },
                  fwd := { busy.fwd with gap := some { used := 4, slots := 6, verifierSlots := 2 } } })
    t.fwd.dSending = some (serviceTelegram 7 0x01 1 0x01 []) ∧ t.sch.tagCounter = 1 := by decide +kernel
theorem test_still_turn_alternates :
    (ran .stillTurn { busy with fwd := { busy.fwd with lineState := .still, gap := none } }).fwd.lastServed = .master := by
  decide +kernel
theorem test_port_u_transmit_opens_the_gap_anew :
    (ran .portUTransmit { busy with fwd := { busy.fwd with uSending := some ⟨[], true⟩, gap := some ⟨3, 6, 2⟩ } }).fwd.gap =
      some { used := 0, slots := 6, verifierSlots := 2 } := by decide +kernel
theorem test_port_u_transmit_opens_the_gap :
    (ran .portUTransmit { busy with fwd := { busy.fwd with gap := none, uSending := some ⟨[1], true⟩, uReady := [⟨[2], false⟩] } }).fwd.gap =
      some { used := 0, slots := 6, verifierSlots := 2 } := by decide +kernel
theorem test_wrong_kind_is_discarded : ran (.telegramWrongKind .u [0x02, 1, 2]) base = base := by decide +kernel
theorem test_master_node_request_joins :
    (ran (.masterNodeRequest (closed 0x03 [12, 0, 3, 0x10, 0])) base).fwd.masterQueue = [withCheck [0x03, 12, 0, 3, 0x10, 0]] := by
  decide +kernel
theorem test_tag_write_is_blocked :
    (ran (.tagWrite 12 (goodFrame 12 0 0x03 3 [1])) base).fwd.uSending = some ⟨serviceTelegram 12 0 3 0xA0 [], false⟩ := by
  decide +kernel
theorem test_node_reply_is_forwarded :
    (ran (.nodeReplyForward (closed 0x03 [12, 0, 3, 0x83, 0])) base).fwd.uSending =
      some ⟨withCheck [0x03, 12, 0, 3, 0x83, 0], false⟩ := by decide +kernel

/-- A record of position 7 with tag 8 in a query and a state. -/
def asking (q : Query) (st : RecordState) : Record :=
  { tag := 8, position := 6, query := q, attempt := 1, deadline := 1020, state := st }

/-- The part with one record, and position 7 in a phase that suits its query. -/
def waiting (q : Query) (st : RecordState) (r : Runtime) : State :=
  atPos 6 r { base with now := 1000, sch := { base.sch with records := base.sch.records.set 1 (some (asking q st)) },
                        kst := { base.kst with slots := base.kst.slots.set 2 (.programmed 0x5A) } }

def asked : State := waiting .ident .issued (Runtime.cleared .identifying)
def nonce41 : Nonce := 0x0000000700000029
def challenging : Runtime := { heldJaw with phase := .challenging, verdict := .undecided, score := 100, remaining := 1, strokes := 100 }
def challenged : State := waiting (.challenge nonce41 2) .issued challenging
def answerWith (odo response : Word32) : Frame := goodFrame 7 1 0x91 8 (answerPayload nonce41 odo response)
def rightAnswer (odo : Word32) : Frame := answerWith odo (responseWord 0x5A nonce41 jawId odo)

theorem test_ident_starts_a_round :
    let t := ran (.ident 7 (goodFrame 7 1 0x90 8 (identPayload jawId))) asked
    t.run[6].identity = some jawId ∧ t.run[6].phase = .challenging ∧ t.sch.queue = [{ position := 6, kind := .new }] ∧
      t.sch.records[1] = none := by decide +kernel
theorem test_answer_passes :
    let t := ran (.answer 7 (rightAnswer 0x001260A4)) challenged
    t.run[6].score = 250 ∧ t.run[6].odoRef = some { odo := 0x001260A4, strokes := 100 } ∧ t.sch.records[1] = none := by
  decide +kernel
theorem test_answer_fails : (ran (.answer 7 (answerWith 5 0)) challenged).run[6].score = -300 := by decide +kernel
theorem test_no_tag_expires :
    (ran (.noTag 7 (goodFrame 7 1 0x92 8 [])) asked).sch.records[1] = some (asking .ident (.resendWaiting 1)) := by decide +kernel
theorem test_deadline_waits : ran (.deadlineExpiry 1) asked = asked := by decide +kernel
theorem test_read_device :
    (ran (.readEntries (request 0x40 [8, 0, 0, 1])) base).fwd.uSending = some ⟨serviceTelegram 0 0 5 0x80
      [0x5D, 0x21, 0x00, 0x48, 1, 1, 0, 0, 0, 7, 16, 0, 0, 0, 0, 0], false⟩ := by decide +kernel
theorem test_write_setup_locks :
    let t := ran (.writeEntries (request 0x41 ([6, 0, 0, 1] ++ encodeSetup { Setup.default with positionCount := 46 })))
      { base with mgt := { base.mgt with setupLock := false } }
    t.mgt.setupLock = true ∧ t.run[45].phase = .vacant ∧ t.run[46].phase = .disabled := by decide +kernel
theorem test_hold : (ran (.hold (request 0x42 [])) base).mgt.hold = true := by decide +kernel
theorem test_release_hold : (ran (.releaseHold (request 0x43 [])) { base with mgt := { base.mgt with hold := true } }).mgt.hold = false := by
  decide +kernel
theorem test_discard_staged :
    (ran (.discardStaged (request 0x44 [])) (staged [.cls 0 jaw] base)).mgt.edits = [] := by
  decide +kernel
theorem test_notice_drain_of_none :
    (ran (.noticeDrain (request 0x48 [15])) base).fwd.uSending = some ⟨serviceTelegram 0 0 5 0x80 [], false⟩ := by decide +kernel
theorem test_attention_read :
    let t := ran (.attentionRead (request 0x49 []))
      { base with mgt := { base.mgt with attention := { Attention.clear with keyDone := true, framing := true } } }
    t.fwd.uSending = some ⟨serviceTelegram 0 0 5 0x80 [0x14, 0], false⟩ ∧ t.mgt.attention = Attention.clear := by decide +kernel
theorem test_attention_mask : (ran (.attentionMask (request 0x4A [0x11])) base).mgt.mask =
    { Attention.clear with notice := true, framing := true } := by decide +kernel
theorem test_position_release : (ran (.positionRelease (request 0x50 [7])) (atPos 6 heldJaw base)).run[6].released = true := by
  decide +kernel
theorem test_position_rechallenge :
    let t := ran (.positionRechallenge (request 0x51 [7])) (atPos 6 heldJaw base)
    t.run[6].phase = .challenging ∧ t.run[6].roundKind = .manual := by decide +kernel
theorem test_revoke_insert :
    let t := ran (.revokeInsert (request 0x58 (encodeRevocation { cls := 0x0214, lot := 0x00311F, scope := .wholeLot })))
      (atPos 6 heldJaw base)
    t.run[6].verdict = .revoked ∧ t.run[6].latch = true ∧ t.run[6].score = 540 ∧
      t.fwd.uSending = some ⟨serviceTelegram 0 0 5 0x80 [0, 0, 0, 1, 1], false⟩ := by decide +kernel
theorem test_revoke_remove_not_found :
    (ran (.revokeRemove (request 0x59 (encodeRevocation { cls := 1, lot := 2, scope := .serial 3 }))) base).fwd.uSending =
      some ⟨serviceTelegram 0 0 5 0x82 [8], false⟩ := by decide +kernel
theorem test_revoke_clear :
    (ran (.revokeClear (request 0x5A [])) { base with revocations := [{ cls := 1, lot := 2, scope := .serial 3 }] }).revocations = [] := by
  decide +kernel
theorem test_key_program_accepted :
    let t := ran (.keyProgram (request 0x60 (9 :: be 16 0x5A))) { base with now := 1029 }
    t.kst.op = .programming 9 0x5A 1033 ∧ t.fwd.uSending = some ⟨serviceTelegram 0 0 5 0x81 [], false⟩ := by decide +kernel
theorem test_key_erase_abandons :
    let t := ran (.keyErase (request 0x61 [0])) challenged
    t.run[6].phase = .held ∧ t.run[6].keyMissing = true ∧ t.run[6].score = 100 ∧ t.sch.records[1] = none := by decide +kernel
theorem test_key_protect_locked : (ran (.keyProtect (request 0x62 [16])) base).fwd.uSending =
    some ⟨serviceTelegram 0 0 5 0x82 [5], false⟩ := by decide +kernel
theorem test_unknown_request : (ran (.unknownRequest 0x45 (request 0x45 [1])) base).fwd.uSending =
    some ⟨serviceTelegram 0 0 5 0x82 [7], false⟩ := by decide +kernel
theorem test_program_completion :
    let t := ran (.programCompletion true) { base with now := 50, kst := { base.kst with op := .programming 9 0x5A 50 } }
    t.kst.slots[9] = .programmed 0x5A ∧ t.kst.lastResult = .programmed ∧ t.mgt.attention.keyDone = true := by decide +kernel
theorem test_erase_completion :
    let t := ran (.eraseCompletion #v[true, true, false, true]) { base with kst := { base.kst with op := .erasing 1 0 } }
    t.kst.slots[6] = .faulty ∧ t.kst.slots[7] = .blank ∧ t.kst.lastResult = .eraseFaulty := by decide +kernel
theorem test_protect_completion :
    (ran .protectCompletion { base with kst := { base.kst with op := .protecting 4 0 } }).kst.boundary = 4 := by decide +kernel
theorem test_epoch_update_completion :
    let t := ran .epochUpdateCompletion { State.reset with now := 4 }
    t.kst.epoch = 1 ∧ t.kst.op = .idle := by decide +kernel

/-! ### Witnesses: states and operands that meet the hypotheses of each statement, clause by clause -/

theorem witness_StepTakesTheFrontCommand :
    ({ base with pending := [.por, .powerLoss] } : State).pending = .por :: [.powerLoss] ∧ base.pending = [] := by
  decide +kernel

theorem witness_PowerOnAndPinResetReturnDeliveredValues :
    base.resetAsserted = false ∧
      (({ base with resetAsserted := true } : State).resetAsserted = true ∧ ({ base with resetAsserted := true } : State).supply = .on) ∧
      ({ base with resetAsserted := true, supply := .risen } : State).supply = .risen ∧
      ({ base with resetAsserted := true, supply := .off } : State).supply = .off := by decide +kernel

theorem witness_LineResetKeepsTheTables : Arrives base (request 0x70 []) 0x70 := arrives_of (by decide +kernel) (by decide +kernel)

theorem witness_ResetLineAndPowerLossStopThePart :
    base.live = true ∧ ({ base with supply := .off } : State).live = false ∧
      (({ base with resetAsserted := true } : State).resetAsserted = true ∧ Instr.passageToRunning ≠ .por ∧
        Instr.passageToRunning ≠ .powerLoss ∧ Instr.passageToRunning ≠ .resetAssert ∧ Instr.passageToRunning ≠ .pinReset) ∧
      ({ base with supply := .risen } : State).supply ≠ .on := by decide +kernel

theorem witness_DamagedServiceTelegramsAreDiscarded :
    ServiceTests (withCheck [0x03, 48, 1, 15, 0x01, 0]) ∧
      (base.live = true ∧ serviceBytes (.masterNodeRequest [49, 0, 3, 1, 0, 0, 0]) = some [0x03, 49, 0, 3, 1, 0, 0, 0] ∧
        ¬ ServiceTests [0x03, 49, 0, 3, 1, 0, 0, 0]) :=
  ⟨serviceTests_of (by decide +kernel), by decide +kernel, rfl, fun h => absurd h.node (by decide)⟩

theorem witness_SentTelegramsAreGood :
    (48 : Byte).toNat ≤ 48 ∧ ((0x01 : Byte) = 0x00 ∨ (0x01 : Byte) = 0x01) ∧ (15 : Byte).toNat ≤ 15 ∧
      (List.replicate 240 (0 : Byte)).length ≤ 240 :=
  ⟨by decide, by decide, by decide, le_of_eq (List.length_replicate ..)⟩

set_option maxRecDepth 100000 in
/-- A slot count of 0 and of 65, a slot size neither 4 nor 8, and the other size under a locked framing. -/
theorem witness_BadCycleTelegramOnlyLatchesFraming :
    base.live = true ∧ ¬ CycleTests base.fwd.framing (slotsBody 0x01 0 4 []) ∧ ¬ CycleTests base.fwd.framing (slotsBody 0x01 65 4 []) ∧
      ¬ CycleTests base.fwd.framing (slotsBody 0x01 1 5 []) ∧ ¬ CycleTests .short (slotsBody 0x01 1 8 []) := by
  simp only [cycleTests_iff]
  decide +kernel

set_option maxRecDepth 100000 in
/-- Staged items wait in RUNNING and in STARTING; the last slot of a position, and the first slot beyond them. -/
theorem witness_GoodCycleTelegramIsGatedAndSent :
    base.live = true ∧ CycleTests base.fwd.framing (slotsBody 0x01 1 4 []) ∧ CycleTests base.fwd.framing (slotsBody 0x01 64 8 []) ∧
      (let s := staged [.cls 1 jaw] base
       s.live = true ∧ s.mgt.edits ≠ [] ∧ s.mgt.hold = false ∧ s.device = .running) ∧
      ({ staged [.cls 1 jaw] base with device := .starting } : State).device = .starting ∧
      ((47 : Pos).val < ((slotsBody 0x01 64 8 []).getD 2 0).toNat ∧ (47 : Pos).val + 1 ≤ base.mgt.setup.positionCount ∧
        base.run[(47 : Pos)].classIndex = none) ∧
      classOf (atPos 6 heldJaw base) (atPos 6 heldJaw base).run[(6 : Pos)] = some jaw ∧ 48 < ((slotsBody 0x01 64 8 []).getD 2 0).toNat := by
  simp only [cycleTests_iff]
  decide +kernel

theorem witness_StartCountBringsThePassage :
    (let s : State := { base with device := .starting, startCount := 7 }
     s.live = true ∧ CycleTests s.fwd.framing (slotsBody 0x01 1 4 []) ∧ s.device = .starting ∧ s.mgt.edits = []) ∧
      (let s : State := { base with device := .starting }
       s.live = true ∧ s.device = .starting ∧ s.startCount = 8 ∧ s.mgt.setupLock = true) ∧
      (let s : State := { base with device := .starting, startCount := 7 }
       s.live = true ∧ s.startCount ≠ 8) := by
  simp only [cycleTests_iff]
  decide +kernel

/-- A part one boundary before its decay step. -/
def decaying : State := atPos 6 { heldJaw with decayCount := 99 } (cycling base)

theorem decaying_due : DecayIsDue decaying 6 jaw := by
  unfold DecayIsDue Advancing
  decide +kernel

/-- Its neighbour is VACANT. -/
theorem decaying_elsewhere : ∀ e, ¬ DecayIsDue decaying 7 e := fun _ h => absurd h.1 (by unfold Advancing; decide +kernel)

theorem witness_BoundaryAdvancesEveryPosition :
    decaying.live = true ∧ CycleTests decaying.fwd.framing (slotsBody 0x01 1 4 []) ∧ decaying.device = .running ∧
      decaying.mgt.edits = [] ∧ DecayIsDue decaying 6 jaw ∧ (∀ e, ¬ DecayIsDue decaying 7 e) ∧
      (decaying.run[(6 : Pos)].phase = .held ∧ decaying.run[(6 : Pos)].latch = false) ∧ ¬ Advancing decaying.run[(7 : Pos)] ∧
      (∃ e, Advancing (atPos 6 heldJaw base).run[(6 : Pos)] ∧ classOf (atPos 6 heldJaw base) (atPos 6 heldJaw base).run[(6 : Pos)] = some e) := by
  refine ⟨by decide +kernel, cycleTests_iff.2 (by decide +kernel), by decide +kernel, by decide +kernel, decaying_due,
    decaying_elsewhere, by decide +kernel, ?_, jaw, ?_, by decide +kernel⟩ <;> (unfold Advancing; decide +kernel)

theorem witness_DecayStepMovesTheScoreTowardZero :
    (decaying.live = true ∧ decaying.device = .running ∧ decaying.fwd.lineState = .cycling ∧ DecayIsDue decaying 6 jaw) ∧
      (∀ e, ¬ DecayIsDue decaying 7 e) ∧ ({ decaying with device := .starting } : State).device = .starting ∧
      base.fwd.lineState = .still :=
  ⟨⟨by decide +kernel, by decide +kernel, rfl, decaying_due⟩, decaying_elsewhere, rfl, rfl⟩

/-- The part with a return expected: cycle number 0x1234, one slot of four bytes. -/
def expecting : State :=
  { base with fwd := { base.fwd with lineState := .cycling, expectation := some { cycleNumber := 0x1234, slotCount := 1, slotSize := 4 } } }

theorem expecting_return :
    ReturnTests { cycleNumber := 0x1234, slotCount := 1, slotSize := 4 } (slotsBody 0x02 1 4 [0xC0, 0, 0, 5]) :=
  returnTests_of (by decide +kernel)

theorem witness_PairedReturnGoesUpstreamWithStatus :
    expecting.live = true ∧ expecting.fwd.expectation = some { cycleNumber := 0x1234, slotCount := 1, slotSize := 4 } ∧
      ReturnTests { cycleNumber := 0x1234, slotCount := 1, slotSize := 4 } (slotsBody 0x02 1 4 [0xC0, 0, 0, 5]) ∧
      ({ expecting with device := .starting } : State).device = .starting :=
  ⟨by decide +kernel, rfl, expecting_return, rfl⟩

/-- A damaged return of the expected length, one of another length, and one that nothing expects. -/
theorem witness_UnpairedReturnIsMarkedDamaged :
    expecting.live = true ∧
      (∀ e, expecting.fwd.expectation = some e → ¬ ReturnTests e (List.replicate 10 0)) ∧
      (List.replicate 10 (0 : Byte)).length + 1 = 5 + 1 * 4 + 2 ∧
      (∀ e, expecting.fwd.expectation = some e → ¬ ReturnTests e []) ∧ ([] : Bytes).length + 1 ≠ 5 + 1 * 4 + 2 ∧
      base.fwd.expectation = none :=
  ⟨by decide +kernel, fun _ _ h => absurd h.check (by decide +kernel), by decide, fun _ _ h => absurd h.header (by decide),
    by decide, rfl⟩

theorem witness_StatusSlotShowsTheState : base.mgt.notices.length ≤ 32 := by decide +kernel

/-- Position 1 has a slot on the return, position 2 has none. -/
theorem witness_ReturnHandlesPositionsIndependently :
    expecting.live = true ∧ expecting.device = .running ∧
      expecting.fwd.expectation = some { cycleNumber := 0x1234, slotCount := 1, slotSize := 4 } ∧
      ReturnTests { cycleNumber := 0x1234, slotCount := 1, slotSize := 4 } (slotsBody 0x02 1 4 [0xC0, 0, 0, 5]) ∧
      1 ≤ (1 : Pos).val ∧ (0 : Pos).val < 1 ∧ (4 = 4 ∨ 4 = 8) ∧
      (QueueGroups expecting.sch.queue [] [] ∧ ∀ p, Unasked expecting p) ∧
      ∀ p : Pos, (expecting.sightings.filter (fun e => decide (p ∈ e.holders))).length ≤ 1 :=
  ⟨by decide +kernel, rfl, rfl, expecting_return, by decide, by decide, by decide,
    ⟨⟨rfl, by simp, by simp⟩, fun p => unasked_of (by revert p; decide +kernel)⟩, by decide +kernel⟩

/-- One position settles on a return and one loses its part. -/
theorem test_settled_and_left :
    (let s := atPos 6 { Runtime.cleared .settling with settleCount := 15 } base
     partSettled s (handleInput 6 (.present 0 5) s) 6 = true) ∧
      (let s := atPos 6 { heldJaw with lossCount := 7 } base
       partLeft s (handleInput 6 .missing s) 6 = true ∧ partLeft s (handleInput 6 .absent s) 6 = true ∧
        partLeft s (handleInput 6 (.present 0 5) s) 6 = false) := by decide +kernel

/-- A SETTLING part with a watch mask of two bits, and a count of its own. -/
def settling (count loss : Nat) : State :=
  atPos 6 { Runtime.cleared .settling with settleCount := count, lossCount := loss }
    { base with configs := base.configs.set 6 { PosConfig.default with settleCycles := 3, watchMask := 3 } }

theorem settling_watch (n l : Nat) : WatchTrue (settling n l).configs[(6 : Pos)] 3 := by
  show WatchTrue { PosConfig.default with settleCycles := 3, watchMask := 3 } 3
  unfold WatchTrue
  decide

theorem settling_no_watch (n l : Nat) : ¬ WatchTrue (settling n l).configs[(6 : Pos)] 1 :=
  fun h => absurd (h 1 (by decide) (by show (3 : BitVec 14).getLsbD 1 = true; decide)) (by show ¬ (_ = decide (WatchForm.allSet = .allSet)); decide)

theorem witness_SettlingFollowsTheWatchCondition :
    (settling 1 0).run[(6 : Pos)].phase = .settling ∧
      (WatchTrue (settling 1 0).configs[(6 : Pos)] 3 ∧
        (settling 1 0).run[(6 : Pos)].settleCount + 1 < (settling 1 0).configs[(6 : Pos)].settleCycles) ∧
      (WatchTrue (settling 2 0).configs[(6 : Pos)] 3 ∧
        (settling 2 0).configs[(6 : Pos)].settleCycles ≤ (settling 2 0).run[(6 : Pos)].settleCount + 1 ∧
        Unasked (settling 2 0) 6 ∧ QueueGroups (settling 2 0).sch.queue [] []) ∧
      ¬ WatchTrue (settling 1 0).configs[(6 : Pos)] 1 ∧
      (settling 1 6).run[(6 : Pos)].lossCount + 1 < (settling 1 6).mgt.setup.lostCycles ∧
      (settling 1 7).mgt.setup.lostCycles ≤ (settling 1 7).run[(6 : Pos)].lossCount + 1 :=
  ⟨by decide +kernel, ⟨settling_watch 1 0, by decide +kernel⟩,
    ⟨settling_watch 2 0, by decide +kernel, unasked_of (by decide +kernel), rfl, by simp, by simp⟩, settling_no_watch 1 0,
    by decide +kernel, by decide +kernel⟩

theorem witness_SeatedInputsCountStrokes :
    ((atPos 6 heldJaw base).run[(6 : Pos)].phase = .held ∧ (atPos 6 heldJaw base).run[(6 : Pos)].classIndex = some 0 ∧
        (6 = (atPos 6 heldJaw base).mgt.classes[(0 : ClassIdx)].strokeCap)) ∧
      asked.run[(6 : Pos)].phase = .identifying ∧ asked.run[(6 : Pos)].classIndex = none ∧ 8 = asked.mgt.setup.defaultStrokeCap ∧
      asked.run[(6 : Pos)].lossCount + 1 < asked.mgt.setup.lostCycles ∧
      (atPos 6 { heldJaw with lossCount := 7 } base).mgt.setup.lostCycles ≤
        (atPos 6 { heldJaw with lossCount := 7 } base).run[(6 : Pos)].lossCount + 1 := by decide +kernel

theorem witness_VacantAndLostInputs :
    (atPos 6 (Runtime.cleared .disabled) base).run[(6 : Pos)].phase = .disabled ∧
      (atPos 6 (Runtime.cleared .lost) base).run[(6 : Pos)].phase = .lost ∧ base.run[(6 : Pos)].phase = .vacant ∧
      1 < base.configs[(6 : Pos)].settleCycles ∧
      ({ PosConfig.default with settleCycles := 1 } : PosConfig).settleCycles ≤ 1 := by decide +kernel

/-- A VACANT position with settle_cycles 1, its watch condition true with bits 0 and 1 set and false with bit 0 alone. -/
theorem witness_VacantAndLostInputs_of_one_return :
    let s : State := { base with configs := base.configs.set 6 { PosConfig.default with settleCycles := 1, watchMask := 3 } }
    s.run[(6 : Pos)].phase = .vacant ∧ WatchTrue s.configs[(6 : Pos)] 3 ∧ ¬ WatchTrue s.configs[(6 : Pos)] 1 ∧
      s.configs[(6 : Pos)].settleCycles ≤ 1 ∧ Unasked s 6 ∧ QueueGroups s.sch.queue [] [] := by
  refine ⟨by decide +kernel, ?_, ?_, by decide +kernel, unasked_of (by decide +kernel), rfl, by simp, by simp⟩
  · show WatchTrue { PosConfig.default with settleCycles := 1, watchMask := 3 } 3
    unfold WatchTrue
    decide
  · show ¬ WatchTrue { PosConfig.default with settleCycles := 1, watchMask := 3 } 1
    unfold WatchTrue
    decide

theorem witness_OnePositionEventsActWhenDue :
    ((settling 2 0).live = true ∧ (settling 2 0).device = .running ∧ (settling 2 0).run[(6 : Pos)].phase = .settling ∧
        (settling 2 0).configs[(6 : Pos)].settleCycles ≤ (settling 2 0).run[(6 : Pos)].settleCount + 1 ∧
        Unasked (settling 2 0) 6 ∧ QueueGroups (settling 2 0).sch.queue [] []) ∧
      (settling 1 0).run[(6 : Pos)].settleCount + 1 < (settling 1 0).configs[(6 : Pos)].settleCycles ∧
      ((settling 2 7).mgt.setup.lostCycles ≤ (settling 2 7).run[(6 : Pos)].lossCount + 1) ∧
      (let s := atPos 6 { Runtime.cleared .vacant with lossCount := 7 } base
       s.mgt.setup.lostCycles ≤ s.run[(6 : Pos)].lossCount + 1 ∧ s.run[(6 : Pos)].phase = .vacant) ∧
      (settling 2 6).run[(6 : Pos)].lossCount + 1 < (settling 2 6).mgt.setup.lostCycles :=
  ⟨⟨by decide +kernel, by decide +kernel, by decide +kernel, by decide +kernel, unasked_of (by decide +kernel), rfl, by simp, by simp⟩,
    by decide +kernel, by decide +kernel, by decide +kernel, by decide +kernel⟩

theorem witness_StillTimeoutStopsTheLine :
    (busy.live = true ∧ busy.fwd.lineState = .cycling ∧
        ({ busy with fwd := { busy.fwd with stillTimer := some 50 } } : State).fwd.stillTimer = some 50 ∧ busy.mgt.setup.stillTimeout ≤ 50) ∧
      (busy.fwd.stillTimer = some 3 ∧ 3 < busy.mgt.setup.stillTimeout) ∧ base.fwd.stillTimer = none ∧
      busy.mgt.edits = [] ∧ busy.mgt.hold = false ∧ (staged [.cls 1 jaw] busy).mgt.edits ≠ [] := by decide +kernel

/-- The part with work for the verifier alone, and a gap whose next opportunity is its last. -/
def lastOpportunity : State :=
  atPos 6 { Runtime.cleared .identifying with pendingRequest := some .ident }
    { base with
      sch := { base.sch with queue := [{ position := 6, kind := .ident }] },
      fwd := { base.fwd with lineState := .cycling, gap := some { used := 5, slots := 6, verifierSlots := 2 } } }

theorem witness_OpportunitiesAndTurnsAreShared :
    (busy.live = true ∧ busy.fwd.dWaiting = none ∧ busy.fwd.gap = some { used := 0, slots := 6, verifierSlots := 2 } ∧
        busy.fwd.lineState = .cycling ∧ busy.fwd.masterQueue = [1] :: [[2]] ∧ 0 + 1 + 2 ≤ 6) ∧
      (lastOpportunity.live = true ∧ lastOpportunity.fwd.dWaiting = none ∧ lastOpportunity.device = .running ∧
        lastOpportunity.fwd.gap = some { used := 5, slots := 6, verifierSlots := 2 } ∧
        choose lastOpportunity = some (.queued { position := 6, kind := .ident }) ∧ 6 < 5 + 1 + 2) ∧
      (base.fwd.gap = none ∧ base.fwd.lineState = .still ∧ base.fwd.masterQueue = [] ∧ choose base = none) ∧
      (let s : State := { busy with fwd := { busy.fwd with lineState := .still } }
       s.fwd.lastServed = .verifier ∧ s.fwd.masterQueue = [1] :: [[2]]) ∧
      (let s : State := { lastOpportunity with fwd := { lastOpportunity.fwd with lineState := .still, lastServed := .master } }
       s.device = .running ∧ choose s = some (.queued { position := 6, kind := .ident })) ∧
      ({ busy with fwd := { busy.fwd with
        dWaiting := some { bytes := [], expectation := { cycleNumber := 0, slotCount := 1, slotSize := 4 } } } } : State).fwd.dWaiting ≠ none := by
  decide +kernel

theorem witness_PortsSendWhatWaits :
    base.live = true ∧ base.fwd.dWaiting = none ∧
      ({ busy with fwd := { busy.fwd with
        dWaiting := some { bytes := [], expectation := { cycleNumber := 0, slotCount := 1, slotSize := 4 } } } } : State).fwd.dWaiting =
        some { bytes := [], expectation := { cycleNumber := 0, slotCount := 1, slotSize := 4 } } := by decide +kernel

/-- One telegram for each route of port U, with a full queue for the last. -/
theorem witness_MasterRequestsAreRouted :
    base.live = true ∧
      (ServiceTests (0x03 :: closed 0x03 [12, 0, 3, 0x80, 0]) ∧ (closed 0x03 [12, 0, 3, 0x80, 0]).take 4 = [12, 0, 3, 0x80]) ∧
      ServiceTests (0x03 :: closed 0x03 [12, 1, 3, 0x10, 0]) ∧ ServiceTests (0x03 :: closed 0x03 [0, 0, 3, 0x7F, 0]) ∧
      ServiceTests (0x03 :: closed 0x03 [12, 0, 3, 0x03, 0]) ∧ ServiceTests (0x03 :: closed 0x03 [48, 0, 3, 0x7F, 0]) ∧
      base.fwd.masterQueue.length < 4 ∧
      4 ≤ ({ base with fwd := { base.fwd with masterQueue := [[1], [2], [3], [4]] } } : State).fwd.masterQueue.length :=
  ⟨by decide +kernel, ⟨serviceTests_of (by decide +kernel), by decide +kernel⟩, serviceTests_of (by decide +kernel),
    serviceTests_of (by decide +kernel), serviceTests_of (by decide +kernel), serviceTests_of (by decide +kernel),
    by decide +kernel, by decide +kernel⟩

theorem witness_TagWriteIsBlocked :
    base.live = true ∧ (ServiceTests ((goodFrame 48 0 0x03 3 [1]).telegram 48 0x00 0x03) ∧ (48 : Byte) ≠ 0) ∧
      ServiceTests ((goodFrame 0 0 0x03 3 []).telegram 0 0x00 0x03) :=
  ⟨by decide +kernel, ⟨serviceTests_of (by decide +kernel), by decide⟩, serviceTests_of (by decide +kernel)⟩

theorem witness_NodeRepliesAreRouted :
    base.live = true ∧ ServiceTests (0x03 :: closed 0x03 [12, 0, 3, 0x7F, 0]) ∧ ServiceTests (0x03 :: closed 0x03 [0, 0, 3, 0x80, 0]) ∧
      ServiceTests (0x03 :: closed 0x03 [12, 0, 3, 0x80, 0]) ∧ ServiceTests (0x03 :: closed 0x03 [48, 1, 3, 0xFF, 0]) ∧
      (closed 0x03 [48, 1, 3, 0xFF, 0]).take 4 = [48, 1, 3, 0xFF] :=
  ⟨by decide +kernel, serviceTests_of (by decide +kernel), serviceTests_of (by decide +kernel), serviceTests_of (by decide +kernel),
    serviceTests_of (by decide +kernel), by decide +kernel⟩

/-! ### Witnesses for the scheduler and the verifier replies -/

/-- The part with a list of records in its places. -/
def recorded (a b c d : Option Record) (s : State) : State := { s with sch := { s.sch with records := #v[a, b, c, d] } }

/-- A record of another position. -/
def other (tag : Nat) (p : Pos) (st : RecordState) : Record :=
  { tag, position := p, query := .ident, attempt := 1, deadline := 5, state := st }

/-- Two records RESEND-WAITING, the second of them first in order. -/
def twoWaiting : State := recorded (some (other 1 0 (.resendWaiting 4))) (some (other 2 1 (.resendWaiting 3))) none none base

/-- Every record in use, none RESEND-WAITING. -/
def full : State :=
  recorded (some (other 1 0 .issued)) (some (other 2 1 .issued)) (some (other 3 2 .issued)) (some (other 4 3 .issued)) base

/-- Position 7 waits for the next challenge of its round. -/
def between : State := atPos 6 challenging base

/-- An IDENT entry of position 7 behind a NEW entry of a position without a class. -/
def queued : State :=
  { base with sch := { base.sch with queue := [{ position := 2, kind := .new }, { position := 6, kind := .ident }] } }

/-- A HELD part whose sweep period is over, and one that gave no identity. -/
def sweeping : State := atPos 6 { heldJaw with sweepAge := 200 } base
def sweepingUnknown : State := atPos 6 { Runtime.cleared .held with verdict := .undecided, sweepAge := 64 } base

theorem no_records {s : State} (h : ∀ i : RecNo, s.sch.records[i] = none) {i : RecNo} {r : Record} (hr : s.sch.records[i] = some r) :
    False := by rw [h i] at hr; cases hr

theorem none_resending {s : State} (h : ∀ i : RecNo, resendOrder s i = none) : ∀ i n, ¬ Resending s i n :=
  fun i n x => by rw [resending_iff, h i] at x; cases x

theorem base_phase_other : ∀ q : Pos, q ≠ 6 → between.run[q].phase = .vacant := by decide +kernel

theorem witness_SchedulerChoosesInOrder :
    (Resending twoWaiting 1 3 ∧ ∀ j m, Resending twoWaiting j m → j ≠ 1 → 3 < m) ∧
      ((∀ i n, ¬ Resending full i n) ∧ ∀ i : RecNo, full.sch.records[i] ≠ none) ∧
      ((∀ i n, ¬ Resending between i n) ∧ between.sch.records[(0 : RecNo)] = none ∧ EpochReady between ∧ Continues between 6 ∧
        ∀ q : Pos, q.val < 6 → ¬ Continues between q) ∧
      ((∀ p, ¬ Continues queued p) ∧ queued.sch.queue = [{ position := 2, kind := .new }] ++ { position := 6, kind := .ident } :: [] ∧
        ¬ MayIssue queued { position := 2, kind := .new } ∧ MayIssue queued { position := 6, kind := .ident }) ∧
      (MaySweep sweeping 6 ∧ (∀ q, SweptBefore sweeping.sch.cursor q 6 → ¬ MaySweep sweeping q) ∧
        sweeping.run[(6 : Pos)].identity ≠ none) ∧
      (MaySweep sweepingUnknown 6 ∧ sweepingUnknown.run[(6 : Pos)].identity = none) ∧
      (base.sch.queue = [] ∧ ∀ p, ¬ MaySweep base p) := by
  refine ⟨⟨resending_iff.2 (by decide +kernel), fun j m h hj => ?_⟩, ⟨none_resending (by decide +kernel), by decide +kernel⟩,
    ⟨none_resending (by decide +kernel), by decide +kernel, by unfold EpochReady; decide +kernel,
      ⟨by decide +kernel, by decide +kernel, by decide +kernel, unasked_of (by decide +kernel)⟩, fun q hq h => ?_⟩,
    ⟨fun p h => ?_, by decide +kernel, fun h => ?_, fun i r hr => (no_records (by decide +kernel) hr).elim, .inl rfl⟩,
    ⟨⟨by decide +kernel, by decide +kernel, .inl ⟨by decide +kernel, jaw, by decide +kernel⟩,
      fun i r hr => (no_records (by decide +kernel) hr).elim, .inr (by unfold EpochReady; decide +kernel)⟩, fun q hq h => ?_,
      by decide +kernel⟩,
    ⟨⟨by decide +kernel, by decide +kernel, .inr ⟨by decide +kernel, by decide +kernel, .inl (by decide +kernel)⟩,
      fun i r hr => (no_records (by decide +kernel) hr).elim, .inl (by decide +kernel)⟩, by decide +kernel⟩,
    ⟨by decide +kernel, fun p h => ?_⟩⟩
  · rw [resending_iff] at h
    have k : ∀ j : RecNo, j ≠ 1 → (resendOrder twoWaiting j).all (fun m => decide (3 < m)) = true := by decide +kernel
    have := k j hj
    rw [h] at this
    simpa using this
  · have v := base_phase_other q (fun e => by rw [e] at hq; exact absurd hq (by decide))
    exact absurd h.1 (by rw [v]; decide)
  · have v : ∀ q : Pos, queued.run[q].phase = .vacant := by decide +kernel
    exact absurd h.1 (by rw [v p]; decide)
  · exact absurd h.2 (by unfold EpochReady; decide +kernel)
  · have v : ∀ q : Pos, q ≠ 6 → sweeping.run[q].phase = .vacant := by decide +kernel
    have ne : q ≠ 6 := fun e => by rw [e] at hq; exact absurd hq (by unfold SweptBefore; decide)
    exact absurd h.held (by rw [v q ne]; decide)
  · have v : ∀ q : Pos, base.run[q].phase = .vacant := by decide +kernel
    exact absurd h.held (by rw [v p]; decide)

theorem witness_IssueFillsARecord :
    (between.sch.records[(0 : RecNo)] = none ∧ RequestKind.new ≠ .ident ∧ classOf between between.run[(6 : Pos)] = some jaw) ∧
      twoWaiting.sch.records[(1 : RecNo)] = some (other 2 1 (.resendWaiting 3)) ∧
      challenged.sch.records[(1 : RecNo)] = some (asking (.challenge nonce41 2) .issued) := by decide +kernel

theorem asked_only : ∀ i : RecNo, i ≠ 1 → asked.sch.records[i] = none ∧ challenged.sch.records[i] = none := by decide +kernel

/-- One record AWAITING-KEY, and one RESEND-WAITING. -/
def awaiting : State := waiting (.challenge nonce41 2) (.awaitingKey 5 6 1) challenging

theorem witness_DiscardedTelegramsChangeNothing :
    (∀ (i : RecNo) (r : Record), base.sch.records[i] = some r → r.query = .ident → (request 0x90 []).tag.toNat = r.tag →
        (7 : Byte).toNat = r.position.val + 1 → (request 0x90 []).payload.length ≠ 11) ∧
      (RecordsDistinct awaiting ∧ awaiting.sch.records[(1 : RecNo)] = some (asking (.challenge nonce41 2) (.awaitingKey 5 6 1)) ∧
        (rightAnswer 5).tag.toNat = 8 ∧ AwaitingKey awaiting 1 1) ∧
      ((0x02 : Byte) ≠ 0x01 ∧ (0x02 : Byte) ≠ 0x03) ∧ (0x01 : Byte) ≠ 0x02 :=
  ⟨fun i r h => (no_records (by decide +kernel) h).elim,
    ⟨distinct_of (by decide +kernel), by decide +kernel, by decide +kernel, awaiting_iff.2 (by decide +kernel)⟩, by decide, by decide⟩

/-- The IDENT of the jaw. -/
def jawIdent : Frame := goodFrame 7 1 0x90 8 (identPayload jawId)

theorem asked_identifies (s : State) (h : s.live = true) (k : recordsApart s = true)
    (r : s.sch.records[(1 : RecNo)] = some (asking .ident .issued)) (q : s.sch.queue = []) (l : s.sightings = []) :
    Identifies s 7 jawIdent 1 (asking .ident .issued) jawId :=
  ⟨⟨h, serviceTests_of (by decide +kernel), r, by decide +kernel, by decide +kernel⟩, distinct_of k, rfl, .inl rfl, rfl,
    by rw [l]; simp, by rw [q]; simp⟩

theorem jaw_at (s : State) (h : s.mgt.classes = base.mgt.classes) : ClassAt s 0x0214 0 := by
  refine ⟨by decide, ?_, fun j hj => absurd hj (by simp)⟩
  rw [h]
  decide +kernel

theorem witness_KnownPartStartsARound :
    Identifies asked 7 jawIdent 1 (asking .ident .issued) jawId ∧ ClassAt asked jawId.cls 0 ∧
      (∀ e ∈ asked.revocations, ¬ Revokes e jawId) ∧ QueueGroups asked.sch.queue [] [] :=
  ⟨asked_identifies asked (by decide +kernel) (by decide +kernel) (by decide +kernel) rfl rfl, jaw_at asked rfl, by simp [asked, waiting, atPos, modRun, base, State.reset],
    rfl, by simp, by simp⟩

theorem witness_HeldWithoutAChallenge :
    (let s : State := { asked with revocations := [{ cls := 0x0214, lot := 0x00311F, scope := .serial jawId.serial }] }
     Identifies s 7 jawIdent 1 (asking .ident .issued) jawId ∧ ∃ e ∈ s.revocations, Revokes e jawId) ∧
      (let s : State := { asked with mgt := Mgt.initial .power }
       Identifies s 7 jawIdent 1 (asking .ident .issued) jawId ∧ (∀ c, ¬ ClassAt s jawId.cls c) ∧ ∀ e ∈ s.revocations, ¬ Revokes e jawId) := by
  refine ⟨⟨asked_identifies _ (by decide +kernel) (by decide +kernel) (by decide +kernel) rfl rfl, _, List.mem_singleton.2 rfl, rfl, rfl, .inr rfl⟩,
    asked_identifies _ (by decide +kernel) (by decide +kernel) (by decide +kernel) rfl rfl, fun c h => ?_,
    by simp [asked, waiting, atPos, modRun, base, State.reset]⟩
  have z : ∀ c : ClassIdx, (Mgt.initial .power).classes[c].code ≠ jawId.cls := by decide +kernel
  exact z c h.2.1

/-- The jaw's entry with position 10 as its holder. -/
def held10 : Sighting := { cls := 0x0214, serial := jawId.serial, lastOdo := none, holders := [9] }
def duplicated : State := { atPos 9 heldJaw asked with sightings := [held10] }

theorem duplicate_finds (s : State) (h : s.live = true) (k : recordsApart s = true)
    (r : s.sch.records[(1 : RecNo)] = some (asking .ident .issued)) (l : s.sightings = [held10]) :
    FindsHolders s 7 jawIdent 1 (asking .ident .issued) jawId [] held10 [] :=
  ⟨⟨h, serviceTests_of (by decide +kernel), r, by decide +kernel, by decide +kernel⟩, distinct_of k, rfl, .inl rfl, rfl, l, rfl, rfl,
    by simp, by decide, 9, by decide, by decide⟩

/-- The joiner at position 7: of a known class, of an unknown class, and revoked. -/
theorem witness_DuplicateChargesBothSides :
    (FindsHolders duplicated 7 jawIdent 1 (asking .ident .issued) jawId [] held10 [] ∧ 6 = (asking .ident .issued).position ∧
        ClassAt duplicated jawId.cls 0 ∧ (∀ e ∈ duplicated.revocations, ¬ Revokes e jawId) ∧ QueueGroups duplicated.sch.queue [] [] ∧
        (∀ e ∈ duplicated.sch.queue, e.position ≠ 6) ∧ classOf duplicated duplicated.run[(9 : Pos)] = some jaw) ∧
      (let s : State := { duplicated with mgt := Mgt.initial .power }
       FindsHolders s 7 jawIdent 1 (asking .ident .issued) jawId [] held10 [] ∧ (∀ c, ¬ ClassAt s jawId.cls c) ∧
        ∀ e ∈ s.revocations, ¬ Revokes e jawId) ∧
      (let s : State := { duplicated with revocations := [{ cls := 0x0214, lot := 0x00311F, scope := .serial jawId.serial }] }
       FindsHolders s 7 jawIdent 1 (asking .ident .issued) jawId [] held10 [] ∧ ∃ e ∈ s.revocations, Revokes e jawId) := by
  have none : duplicated.revocations = [] := rfl
  refine ⟨⟨duplicate_finds _ (by decide +kernel) (by decide +kernel) (by decide +kernel) rfl, rfl, jaw_at duplicated rfl, by simp [none],
      ⟨rfl, by simp, by simp⟩, by decide +kernel, by decide +kernel⟩,
    ⟨duplicate_finds _ (by decide +kernel) (by decide +kernel) (by decide +kernel) rfl, fun c h => ?_, by simp [none]⟩,
    duplicate_finds _ (by decide +kernel) (by decide +kernel) (by decide +kernel) rfl, _, List.mem_singleton.2 rfl, rfl, rfl, .inr rfl⟩
  have z : ∀ c : ClassIdx, (Mgt.initial .power).classes[c].code ≠ jawId.cls := by decide +kernel
  exact z c h.2.1

/-- The finding charges the HELD holder of position 10 first and calls it, then the joiner; the holders list ascends. -/
theorem test_duplicate_finding :
    let t := ran (.ident 7 jawIdent) duplicated
    t.run[9].phase = .challenging ∧ t.run[6].reason = some .duplicate ∧ t.sightings.map Sighting.holders = [[6, 9]] ∧
      t.sch.queue = [{ position := 6, kind := .new }, { position := 9, kind := .due }] := by decide +kernel

/-- An answer with any odometer and response is verified in `challenged` and in states that differ in what verification reads not. -/
theorem challenged_verifies (s : State) (r : Runtime) (c : ClassEntry) (odo response : Word32)
    (f : testsPass ((answerWith odo response).telegram 7 0x01 0x91) = true) (h : s.live = true) (k : recordsApart s = true)
    (x : s.sch.records[(1 : RecNo)] = some (asking (.challenge nonce41 2) .issued)) (o : s.kst.busy = false)
    (y : s.kst.slots[(2 : SlotNo)] = .programmed 0x5A) (z : s.run[(6 : Pos)] = r) (p : r.phase = .challenging)
    (i : r.identity = some jawId) (e : classOf s r = some c) :
    Verifies s 7 (answerWith odo response) 1 (asking (.challenge nonce41 2) .issued) nonce41 2 0x5A jawId c :=
  ⟨⟨h, serviceTests_of f, x, rfl, rfl⟩, distinct_of k, rfl, .inl rfl, o, y, by rw [← z] at p; exact p, by rw [← z] at i; exact i,
    by rw [← z] at e; exact e⟩

/-- The jaw's entry, last seen at odometer 9, held by position 7. -/
def seenAtNine : State :=
  { challenged with sightings := [{ cls := 0x0214, serial := jawId.serial, lastOdo := some 9, holders := [6] }] }

/-- A first pass at the entry's odometer, and one below it. -/
theorem witness_FirstPassSetsTheReference :
    (Verifies seenAtNine 7 (rightAnswer 9) 1 (asking (.challenge nonce41 2) .issued) nonce41 2 0x5A jawId jaw ∧
        (rightAnswer 9).payload = answerPayload nonce41 9 (responseWord 0x5A nonce41 jawId 9) ∧
        seenAtNine.run[(6 : Pos)].odoRef = none ∧
        ∀ x ∈ seenAtNine.sightings, (6 : Pos) ∈ x.holders → ∀ l, x.lastOdo = some l → l ≤ 9) ∧
      (Verifies seenAtNine 7 (rightAnswer 8) 1 (asking (.challenge nonce41 2) .issued) nonce41 2 0x5A jawId jaw ∧ (8 : Word32) < 9) := by
  refine ⟨⟨challenged_verifies _ challenging jaw 9 _ (by decide +kernel) (by decide +kernel) (by decide +kernel) (by decide +kernel)
      (by decide +kernel) (by decide +kernel) (by decide +kernel) rfl rfl (by decide +kernel), rfl, by decide +kernel, ?_⟩,
    challenged_verifies _ challenging jaw 8 _ (by decide +kernel) (by decide +kernel) (by decide +kernel) (by decide +kernel)
      (by decide +kernel) (by decide +kernel) (by decide +kernel) rfl rfl (by decide +kernel), by decide⟩
  intro x hx _ l hl
  rw [List.mem_singleton.1 hx] at hl
  cases hl
  decide

/-- A part that has passed before: reference 1,000,000 at stroke 100, now at stroke 5,220 (02, Odometer tests at a glance). -/
def passedBefore : Runtime := { challenging with odoRef := some { odo := 1000000, strokes := 100 }, strokes := 5220 }
def later : State := waiting (.challenge nonce41 2) .issued passedBefore

theorem later_verifies (odo : Word32) (f : testsPass ((rightAnswer odo).telegram 7 0x01 0x91) = true) :
    Verifies later 7 (rightAnswer odo) 1 (asking (.challenge nonce41 2) .issued) nonce41 2 0x5A jawId jaw :=
  challenged_verifies _ passedBefore jaw odo _ f (by decide +kernel) (by decide +kernel) (by decide +kernel)
    (by decide +kernel) (by decide +kernel) (by decide +kernel) rfl rfl (by decide +kernel)

/-- Below the reference, at it (a LAG), one past the tolerance below and at it, and the same above. -/
theorem witness_LaterPassTestsTheOdometer :
    (later.run[(6 : Pos)].odoRef = some { odo := 1000000, strokes := 100 } ∧ 5120 = later.run[(6 : Pos)].strokes - 100 ∧
        1005120 = (1000000 : Word32).toNat + 5120 ∧ 180 = jaw.odoTol + 5120 * jaw.slack / 256) ∧
      (Verifies later 7 (rightAnswer 999999) 1 (asking (.challenge nonce41 2) .issued) nonce41 2 0x5A jawId jaw ∧ (999999 : Word32) < 1000000) ∧
      (Verifies later 7 (rightAnswer 1000000) 1 (asking (.challenge nonce41 2) .issued) nonce41 2 0x5A jawId jaw ∧ (1000000 : Word32).toNat + 180 < 1005120) ∧
      (1004939 : Word32).toNat + 180 < 1005120 ∧ 1005120 ≤ (1004940 : Word32).toNat + 180 ∧
      (Verifies later 7 (rightAnswer 1005300) 1 (asking (.challenge nonce41 2) .issued) nonce41 2 0x5A jawId jaw ∧ (1005300 : Word32).toNat ≤ 1005120 + 180) ∧
      (Verifies later 7 (rightAnswer 1005301) 1 (asking (.challenge nonce41 2) .issued) nonce41 2 0x5A jawId jaw ∧ 1005120 + 180 < (1005301 : Word32).toNat) :=
  ⟨by decide +kernel, ⟨later_verifies _ (by decide +kernel), by decide⟩, ⟨later_verifies _ (by decide +kernel), by decide⟩, by decide,
    by decide, ⟨later_verifies _ (by decide +kernel), by decide⟩, ⟨later_verifies _ (by decide +kernel), by decide⟩⟩

/-- The jaw's class with fail_latch set. -/
def latching : State :=
  { challenged with mgt := { challenged.mgt with classes := challenged.mgt.classes.set 0 { jaw with failLatch := true } } }

theorem witness_WrongAnswerFails :
    (Verifies challenged 7 (answerWith 5 0) 1 (asking (.challenge nonce41 2) .issued) nonce41 2 0x5A jawId jaw ∧
        (0 : Word32) ≠ responseWord 0x5A nonce41 jawId 5 ∧ jaw.failLatch = false) ∧
      (Verifies latching 7 (answerWith 5 0) 1 (asking (.challenge nonce41 2) .issued) nonce41 2 0x5A jawId { jaw with failLatch := true }) :=
  ⟨⟨challenged_verifies _ challenging jaw 5 0 (by decide +kernel) (by decide +kernel) (by decide +kernel) (by decide +kernel)
      (by decide +kernel) (by decide +kernel) (by decide +kernel) rfl rfl (by decide +kernel), by decide +kernel, rfl⟩,
    challenged_verifies _ challenging { jaw with failLatch := true } 5 0 (by decide +kernel) (by decide +kernel) (by decide +kernel)
      (by decide +kernel) (by decide +kernel) (by decide +kernel) (by decide +kernel) rfl rfl (by decide +kernel)⟩

theorem witness_AnswerWithoutAKeyIsNotJudged :
    (let s : State := { challenged with kst := { challenged.kst with op := .epochUpdate 1040 } }
     ReplyFor s 7 (answerWith 5 6) 0x91 1 (asking (.challenge nonce41 2) .issued) ∧ RecordsDistinct s ∧ s.kst.busy = true) ∧
      (let s : State := { challenged with kst := { challenged.kst with slots := challenged.kst.slots.set 2 .faulty } }
       ReplyFor s 7 (answerWith 5 6) 0x91 1 (asking (.challenge nonce41 2) .issued) ∧ RecordsDistinct s ∧ s.kst.busy = false ∧
        s.kst.slots[(2 : SlotNo)] = .faulty) ∧
      (answerWith 5 6).payload = answerPayload nonce41 5 6 :=
  ⟨⟨⟨by decide +kernel, serviceTests_of (by decide +kernel), by decide +kernel, rfl, rfl⟩, distinct_of (by decide +kernel), by decide +kernel⟩,
    ⟨⟨by decide +kernel, serviceTests_of (by decide +kernel), by decide +kernel, rfl, rfl⟩, distinct_of (by decide +kernel), by decide +kernel,
      by decide +kernel⟩, rfl⟩

/-- At its deadline with an attempt to spare, on its third attempt, and before its deadline. -/
theorem witness_NoTagAndDeadlineExpire :
    (asked.live = true ∧ asked.sch.records[(1 : RecNo)] = some (asking .ident .issued) ∧ RecordsDistinct asked ∧
        ReplyFor asked 7 (goodFrame 7 1 0x92 8 []) 0x92 1 (asking .ident .issued) ∧ (goodFrame 7 1 0x92 8 []).payload = []) ∧
      (asking .ident .issued).deadline ≤ ({ asked with now := 1020 } : State).now ∧ (asking .ident .issued).attempt < 3 ∧
      (let r : Record := { asking (.challenge nonce41 2) .issued with attempt := 3 }
       let s : State := recorded none (some r) none none challenged
       s.sch.records[(1 : RecNo)] = some r ∧ RecordsDistinct s ∧ 3 ≤ r.attempt ∧ s.run[(6 : Pos)].phase = .challenging ∧
        classOf s s.run[(6 : Pos)] = some jaw) ∧
      asked.now < (asking .ident .issued).deadline :=
  ⟨⟨by decide +kernel, by decide +kernel, distinct_of (by decide +kernel),
      ⟨by decide +kernel, serviceTests_of (by decide +kernel), by decide +kernel, rfl, rfl⟩, rfl⟩, by decide, by decide,
    ⟨by decide +kernel, distinct_of (by decide +kernel), by decide, by decide +kernel, by decide +kernel⟩, by decide +kernel⟩

theorem witness_VerdictFollowsThresholds :
    (let s := atPos 6 { heldJaw with score := 399 } base
     classOf s s.run[(6 : Pos)] = some jaw ∧ s.run[(6 : Pos)].phase = .held ∧ s.run[(6 : Pos)].verdict = .genuine ∧
      s.run[(6 : Pos)].pendingRequest = none ∧ Unasked s 6 ∧ (evaluate 6 .decay s).run[(6 : Pos)].verdict = .undecided) ∧
      (let s := atPos 6 { heldJaw with verdict := .undecided, score := 500 } base
       (evaluate 6 .pass s).run[(6 : Pos)].verdict ≠ .undecided ∧ s.run[(6 : Pos)].verdict ≠ .genuine) :=
  ⟨⟨by decide +kernel, by decide +kernel, by decide +kernel, by decide +kernel, unasked_of (by decide +kernel), by decide +kernel⟩, by decide +kernel⟩

/-! ### Witnesses for the requests, the key store, gating and the invariants -/

/-- A POSITION-CONFIG entry whose gate field ends at the last byte of an 8-byte slot. -/
def edgeConfig : PosConfig := { PosConfig.default with gateOffset := 4, gateLength := 4, clampOffset := some 6 }

theorem edgeConfig_fits : ConfigFits 8 edgeConfig := ⟨by decide, by decide +kernel, fun _ h => by cases h; decide +kernel⟩

theorem jaw_fits : ClassFits jaw :=
  ⟨by decide, by decide, by decide, by decide, by decide, by decide, by decide⟩

/-- A Setup record at the edges of its ranges. -/
def edgeSetup : Setup :=
  { positionCount := 48, gapSlots := 16, verifierSlots := 15, answerTimeout := 250, stillTimeout := 1000, lostCycles := 255,
    undecidedRetry := 65535, unknownPolicy := .clamp, unknownClamp := 65535, defaultStrokeCap := 255 }

theorem edgeSetup_fits : SetupFits edgeSetup := ⟨by decide, by decide, by decide, by decide, by decide⟩

/-- The last entry of each table is within it and the next is not; KEY-STATUS is asked of a busy and of an idle store. -/
theorem witness_ReadEntriesAnswersFromTheTables :
    (Arrives base (request 0x40 []) 0x40 ∧ (request 0x40 []).payload.length ≠ 4) ∧
      Asks base (request 0x40 [9, 0, 0, 1]) 0x40 ([9] ++ be 2 (0 : BitVec 16).toNat ++ [1]) ∧
      (Asks base (request 0x40 [5, 1, 255, 255]) 0x40 ([5] ++ be 2 (511 : BitVec 16).toNat ++ [255]) ∧ tableOf 5 = some .revocation ∧
        (511 : BitVec 16).toNat < 512) ∧
      (Asks base (request 0x40 [5, 2, 0, 1]) 0x40 ([5] ++ be 2 (512 : BitVec 16).toNat ++ [1]) ∧ 512 ≤ (512 : BitVec 16).toNat) ∧
      (Asks State.reset (request 0x40 [7, 0, 0, 1]) 0x40 ([7] ++ be 2 (0 : BitVec 16).toNat ++ [1]) ∧ State.reset.kst.busy = true ∧
        base.kst.busy = false ∧ tableOf 7 = some .keyStatus) ∧
      (RuntimeFits heldJaw ∧ ConfigFits 8 edgeConfig ∧ ClassFits jaw ∧ SetupFits edgeSetup ∧ base.kst.boundary ≤ 16) :=
  ⟨⟨arrives_of (by decide +kernel) (by decide +kernel), by decide⟩, asks_of (by decide +kernel) (by decide +kernel) rfl,
    ⟨asks_of (by decide +kernel) (by decide +kernel) rfl, rfl, by decide⟩, ⟨asks_of (by decide +kernel) (by decide +kernel) rfl, by decide⟩,
    ⟨asks_of (by decide +kernel) (by decide +kernel) rfl, by decide +kernel, by decide +kernel, rfl⟩,
    ⟨by decide, by decide, fun _ h => (by cases h), by decide⟩, edgeConfig_fits, jaw_fits, edgeSetup_fits, by decide +kernel⟩

def edgeItems : List EditItem := [.config 46 edgeConfig, .config 47 edgeConfig]

/-- A set that lacks one place for two new items. -/
def nearlyFull : State := { base with mgt := { base.mgt with edits := List.replicate 63 (.cls 0 jaw) } }

theorem edge_asks (s : State) (h : s.live = true) :
    Asks s (request 0x41 ([0x01] ++ be 2 46 ++ be 1 2 ++ [edgeConfig, edgeConfig].flatMap encodeConfig)) 0x41
      ([0x01] ++ be 2 46 ++ be 1 [edgeConfig, edgeConfig].length ++ [edgeConfig, edgeConfig].flatMap encodeConfig) :=
  asks_of h (by decide +kernel) rfl

theorem edge_items (k : Nat) (p : Pos) (c : PosConfig) (h : p.val = 46 + k) (hc : [edgeConfig, edgeConfig][k]? = some c) :
    edgeItems[k]? = some (.config p c) := by
  match k, hc with
  | 0, hc => cases hc; rw [show p = 46 from Fin.ext (by simpa using h)]; rfl
  | 1, hc => cases hc; rw [show p = 47 from Fin.ext (by simpa using h)]; rfl
  | n + 2, hc => simp at hc

theorem witness_ConfigWriteIsStaged :
    ([edgeConfig, edgeConfig] ≠ [] ∧ 46 + [edgeConfig, edgeConfig].length ≤ 48 ∧
        Asks base (request 0x41 ([0x01] ++ be 2 46 ++ be 1 2 ++ [edgeConfig, edgeConfig].flatMap encodeConfig)) 0x41
          ([0x01] ++ be 2 46 ++ be 1 [edgeConfig, edgeConfig].length ++ [edgeConfig, edgeConfig].flatMap encodeConfig) ∧
        (∀ c ∈ [edgeConfig, edgeConfig], ConfigFits (SlotSizeOf base.fwd.framing) c) ∧ edgeItems.length = [edgeConfig, edgeConfig].length ∧
        ∀ (k : Nat) (p : Pos) (c : PosConfig), p.val = 46 + k → [edgeConfig, edgeConfig][k]? = some c → edgeItems[k]? = some (.config p c)) ∧
      (base.mgt.edits.length + (joining base.mgt.edits edgeItems).length ≤ 64 ∧ base.fwd.lineState = .still ∧ base.mgt.hold = false ∧
        (cycling base).fwd.lineState = .cycling ∧ ({ base with mgt := { base.mgt with hold := true } } : State).mgt.hold = true) ∧
      (nearlyFull.live = true ∧ 64 < nearlyFull.mgt.edits.length + (joining nearlyFull.mgt.edits edgeItems).length) := by
  refine ⟨⟨by simp, by simp, edge_asks base (by decide +kernel), ?_, rfl, edge_items⟩, by decide +kernel, by decide +kernel⟩
  intro c hc
  have e : c = edgeConfig := by simpa using hc
  rw [e]
  exact edgeConfig_fits

/-- A write of positions 47 and 48 over a set that holds position 48 and a class: 48 is replaced in place, 47 joins the tail. -/
theorem test_staged_set :
    let t := ran (.writeEntries (request 0x41 ([0x01] ++ be 2 46 ++ be 1 2 ++ [edgeConfig, edgeConfig].flatMap encodeConfig)))
      (staged [.config 47 PosConfig.default, .cls 0 jaw] (cycling base))
    t.mgt.edits = [.config 47 edgeConfig, .cls 0 jaw, .config 46 edgeConfig] := by decide +kernel

/-- A write of the jaw's class at the last index, while index 0 carries its code or not. -/
def classRequest : Frame := request 0x41 ([0x03] ++ be 2 31 ++ be 1 1 ++ [jaw].flatMap encodeClass)
def unclassed : State := { base with mgt := { base.mgt with classes := Vector.replicate 32 ClassEntry.empty } }

theorem class_items (k : Nat) (c : ClassIdx) (e : ClassEntry) (h : c.val = 31 + k) (he : [jaw][k]? = some e) :
    [EditItem.cls 31 jaw][k]? = some (.cls c e) := by
  match k, he with
  | 0, he => cases he; rw [show c = 31 from Fin.ext (by simpa using h)]; rfl
  | n + 1, he => simp at he

theorem class_left (s : State) (c : ClassIdx) (e : ClassEntry) (h : ∃ k, [jaw][k]? = some e ∧ c.val = 31 + k) :
    (s.mgt.classes.set 31 jaw)[c] = e := by
  obtain ⟨k, he, hc⟩ := h
  match k, he with
  | 0, he =>
    cases he
    obtain rfl : c = 31 := Fin.ext (by simpa using hc)
    simp
  | n + 1, he => simp at he

theorem class_kept (s : State) (h : s.mgt.edits = []) (c : ClassIdx) (hc : c.val < 31 ∨ 31 + 1 ≤ c.val) :
    (∀ e, EditItem.cls c e ∈ s.mgt.edits → (s.mgt.classes.set 31 jaw)[c] = e) ∧
      ((∀ e, EditItem.cls c e ∉ s.mgt.edits) → (s.mgt.classes.set 31 jaw)[c] = s.mgt.classes[c]) := by
  rw [h]
  refine ⟨by simp, fun _ => ?_⟩
  have := c.isLt
  exact Vector.getElem_set_ne _ _ (by omega)

set_option maxRecDepth 100000 in
theorem witness_ClassWriteIsStaged :
    [jaw] ≠ [] ∧ 31 + [jaw].length ≤ 32 ∧ Asks base classRequest 0x41 ([0x03] ++ be 2 31 ++ be 1 [jaw].length ++ [jaw].flatMap encodeClass) ∧
      (∀ e ∈ [jaw], ClassFits e ∨ e = ClassEntry.empty) ∧ [EditItem.cls 31 jaw].length = [jaw].length ∧
      (∀ (k : Nat) (c : ClassIdx) (e : ClassEntry), c.val = 31 + k → [jaw][k]? = some e → [EditItem.cls 31 jaw][k]? = some (.cls c e)) ∧
      (∀ s : State, s.mgt.edits = [] →
        (∀ c : ClassIdx, ∀ e, (∃ k, [jaw][k]? = some e ∧ c.val = 31 + k) → (s.mgt.classes.set 31 jaw)[c] = e) ∧
        (∀ c : ClassIdx, c.val < 31 ∨ 31 + [jaw].length ≤ c.val →
          (∀ e, EditItem.cls c e ∈ s.mgt.edits → (s.mgt.classes.set 31 jaw)[c] = e) ∧
            ((∀ e, EditItem.cls c e ∉ s.mgt.edits) → (s.mgt.classes.set 31 jaw)[c] = s.mgt.classes[c]))) ∧
      base.mgt.edits = [] ∧ unclassed.mgt.edits = [] ∧
      (∃ i j : ClassIdx, i ≠ j ∧ (base.mgt.classes.set 31 jaw)[i].code ≠ 0 ∧
        (base.mgt.classes.set 31 jaw)[i].code = (base.mgt.classes.set 31 jaw)[j].code) ∧
      (∀ i j : ClassIdx, i ≠ j → (unclassed.mgt.classes.set 31 jaw)[i].code ≠ 0 →
        (unclassed.mgt.classes.set 31 jaw)[i].code ≠ (unclassed.mgt.classes.set 31 jaw)[j].code) ∧
      unclassed.mgt.edits.length + (joining unclassed.mgt.edits [EditItem.cls 31 jaw]).length ≤ 64 :=
  ⟨by simp, by simp, asks_of (by decide +kernel) (by decide +kernel) rfl, fun e h => .inl (by rw [List.mem_singleton.1 h]; exact jaw_fits),
    rfl, class_items, fun s h => ⟨class_left s, class_kept s h⟩, rfl, rfl, ⟨0, 31, by decide +kernel⟩, by decide +kernel, by decide +kernel⟩

/-- A jaw entry with the bytes at an offset replaced. -/
def jawWith (k : Nat) (bytes : Bytes) : Bytes := (encodeClass jaw).take k ++ bytes ++ (encodeClass jaw).drop (k + bytes.length)

/-- A delivered Setup entry with the bytes at an offset replaced. -/
def setupWith (k : Nat) (bytes : Bytes) : Bytes :=
  (encodeSetup Setup.default).take k ++ bytes ++ (encodeSetup Setup.default).drop (k + bytes.length)

/-- Each test of R161 at the first value it refuses: in order enabled, watch_form, settle_cycles, mask bits 15 and 14, gate
length, the end of the gate field, the clamp byte, and the end of the clamp field. -/
theorem witness_UnfitConfig :
    (∀ b ∈ ([[2, 1, 0, 0, 0, 0, 1, 0], [1, 1, 2, 0, 0, 0, 1, 0], [1, 0, 0, 0, 0, 0, 1, 0], [1, 1, 0, 0, 128, 0, 1, 0],
        [1, 1, 0, 0, 64, 0, 1, 0], [1, 1, 0, 0, 0, 0, 0, 0], [1, 1, 0, 0, 0, 0, 5, 0], [1, 1, 0, 5, 0, 0, 4, 0],
        [1, 1, 0, 0, 0, 0, 1, 136], [1, 1, 0, 0, 0, 0, 1, 1], [1, 1, 0, 0, 0, 0, 1, 135]] : List Bytes), UnfitConfig 8 b) ∧
      UnfitConfig 4 [1, 1, 0, 1, 0, 0, 4, 0] ∧ UnfitConfig 4 [1, 1, 0, 0, 0, 0, 1, 131] := by
  unfold UnfitConfig
  decide +kernel

/-- Each test of R159 at the first value it refuses, in the order of the fields, then the empty code with a nonzero byte. -/
theorem witness_UnfitClass :
    (∀ b ∈ [jawWith 2 [16], jawWith 3 [4], jawWith 6 [0], jawWith 7 [3], jawWith 8 [3], jawWith 9 [3], jawWith 12 [0xFF, 0xFF],
        jawWith 12 [0x03, 0xE9], jawWith 14 [0xFF, 0xFF], jawWith 14 [0x03, 0xE9], jawWith 16 [0xFC, 0x17], jawWith 16 [0, 1],
        jawWith 18 [0, 1], jawWith 20 [0, 1], jawWith 22 [0xFC, 0x17], jawWith 24 [101], jawWith 26 [0x03, 0xE9], jawWith 34 [2],
        jawWith 35 [101], jawWith 36 [0, 0], jawWith 36 [0x03, 0xE9], jawWith 38 [0xFC, 0x17], jawWith 38 [0, 0],
        jawWith 40 [0x01, 0xF5], jawWith 40 [0x01, 0xF4], jawWith 44 [1], jawWith 47 [1], jawWith 0 [0, 0]], UnfitClass b) ∧
      ¬ UnfitClass (encodeClass jaw) := by
  unfold UnfitClass
  decide +kernel

/-- Each test of R169 at the first value it refuses, in the order of the fields. -/
theorem witness_UnfitSetup :
    (∀ b ∈ [setupWith 0 [0], setupWith 0 [49], setupWith 1 [1], setupWith 1 [17], setupWith 2 [0], setupWith 2 [6], setupWith 3 [1],
        setupWith 3 [251], setupWith 4 [0, 4], setupWith 4 [0x03, 0xE9], setupWith 6 [0], setupWith 7 [3], setupWith 8 [0, 0],
        setupWith 12 [0], setupWith 13 [1], setupWith 14 [1], setupWith 15 [1]], UnfitSetup b) ∧
      ¬ UnfitSetup (encodeSetup Setup.default) := by
  unfold UnfitSetup
  decide +kernel

set_option maxRecDepth 100000 in
/-- A table that is not writable, a write that reaches one entry beyond the table, an unfit second POSITION-CONFIG entry, an unfit
CLASS entry, and an unfit Setup record before the lock. -/
theorem witness_UnfitRequestsAreRefused :
    (Arrives base (request 0x41 ([2] ++ be 2 0 ++ [1] ++ [])) 0x41 ∧ ((2 : Byte) ≠ 1 ∧ (2 : Byte) ≠ 3 ∧ (2 : Byte) ≠ 6)) ∧
      (Arrives base (request 0x41 ([1] ++ be 2 48 ++ [1] ++ List.replicate 8 0)) 0x41 ∧ 48 < (48 : BitVec 16).toNat + (1 : Byte).toNat) ∧
      (Arrives base (request 0x41 ([1] ++ be 2 0 ++ [2] ++ ([1, 1, 0, 0, 0, 0, 1, 0] ++ [1, 1, 0, 0, 0, 0, 0, 0]))) 0x41 ∧
        1 < (2 : Byte).toNat ∧ UnfitConfig (SlotSizeOf base.fwd.framing)
          ((([1, 1, 0, 0, 0, 0, 1, 0] ++ [1, 1, 0, 0, 0, 0, 0, 0] : Bytes).drop (8 * 1)).take 8)) ∧
      (Arrives base (request 0x41 ([3] ++ be 2 0 ++ [1] ++ jawWith 2 [16])) 0x41 ∧
        UnfitClass (((jawWith 2 [16]).drop (48 * 0)).take 48)) ∧
      (Arrives State.reset (request 0x41 ([6] ++ be 2 0 ++ [1] ++ setupWith 13 [1])) 0x41 ∧ State.reset.mgt.setupLock = false ∧
        UnfitSetup (setupWith 13 [1])) ∧
      (Arrives base (request 0x41 [1, 0, 0]) 0x41 ∧ (request 0x41 [1, 0, 0]).payload.length < 4) ∧
      (Arrives base (request 0x7F []) 0x7F ∧ (0x7F : Byte) < 0x80) :=
  ⟨⟨arrives_of (by decide +kernel) (by decide +kernel), by decide⟩, ⟨arrives_of (by decide +kernel) (by decide +kernel), by decide⟩,
    ⟨arrives_of (by decide +kernel) (by decide +kernel), by decide, by unfold UnfitConfig; decide +kernel⟩,
    ⟨arrives_of (by decide +kernel) (by decide +kernel), witness_UnfitClass.1 _ (by decide +kernel)⟩,
    ⟨arrives_of (by decide +kernel) (by decide +kernel), rfl, witness_UnfitSetup.1 _ (by decide +kernel)⟩,
    ⟨arrives_of (by decide +kernel) (by decide +kernel), by decide⟩, ⟨arrives_of (by decide +kernel) (by decide +kernel), by decide⟩⟩

theorem witness_SetupIsWrittenOnce :
    Asks base (request 0x41 ([6, 0, 0, 1] ++ encodeSetup edgeSetup)) 0x41 ([0x06, 0x00, 0x00, 0x01] ++ encodeSetup edgeSetup) ∧
      base.mgt.setupLock = true ∧ State.reset.mgt.setupLock = false ∧ SetupFits edgeSetup :=
  ⟨asks_of (by decide +kernel) (by decide +kernel) rfl, rfl, rfl, edgeSetup_fits⟩

theorem witness_HoldReleaseAndDiscard :
    Arrives base (request 0x42 []) 0x42 ∧ Arrives base (request 0x44 []) 0x44 ∧ Arrives busy (request 0x43 []) 0x43 ∧
      busy.fwd.lineState = .cycling ∧ (Arrives (staged [.cls 1 jaw] base) (request 0x43 []) 0x43 ∧ base.fwd.lineState = .still) :=
  ⟨arrives_of (by decide +kernel) (by decide +kernel), arrives_of (by decide +kernel) (by decide +kernel),
    arrives_of (by decide +kernel) (by decide +kernel), rfl, arrives_of (by decide +kernel) (by decide +kernel), rfl⟩

/-- A staged item for position 7, and a staged entry for index 0. -/
def stagedConfig (c : PosConfig) (s : State) : State := staged [.config 6 c] s
def stagedClass (e : ClassEntry) (s : State) : State := staged [.cls 0 e] s

theorem witness_ApplicationReactsToOneItem :
    (let s := stagedConfig { PosConfig.default with enabled := false } (atPos 6 heldJaw base)
     s.mgt.hold = false ∧ s.configs[(6 : Pos)].enabled = true ∧ s.run[(6 : Pos)].phase ≠ .disabled) ∧
      (let s := stagedConfig PosConfig.default
         { base with configs := base.configs.set 6 { PosConfig.default with enabled := false } }
       s.configs[(6 : Pos)].enabled = false ∧ (6 : Pos).val + 1 ≤ s.mgt.setup.positionCount) ∧
      (let s := stagedConfig { PosConfig.default with settleCycles := 5 } (atPos 6 (Runtime.cleared .settling) base)
       s.run[(6 : Pos)].phase = .settling ∧ s.configs[(6 : Pos)].settleCycles ≠ 5) ∧
      (let s := stagedClass { jaw with code := 0x0301 } (atPos 6 heldJaw base)
       s.run[(6 : Pos)].classIndex = some 0 ∧ s.run[(6 : Pos)].identity.map Identity.cls ≠ some 0x0301 ∧ s.run[(6 : Pos)].latch = false) ∧
      (let s := stagedClass jaw (atPos 6 { heldJaw with classIndex := none } unclassed)
       s.run[(6 : Pos)].classIndex = none ∧ s.run[(6 : Pos)].identity.map Identity.cls = some jaw.code ∧ jaw.code ≠ 0 ∧ Unasked s 6) ∧
      (let s := stagedClass { jaw with tGen := 600 } (atPos 6 heldJaw base)
       s.mgt.classes[(0 : ClassIdx)].code = jaw.code ∧ s.mgt.classes[(0 : ClassIdx)] ≠ { jaw with tGen := 600 }) ∧
      (stagedClass { jaw with code := 0x0301 } (atPos 6 { heldJaw with latch := true } base)).run[(6 : Pos)].latch = true ∧
      (stagedClass jaw (atPos 6 heldJaw base)).mgt.classes[(0 : ClassIdx)] = jaw ∧ base.mgt.edits = [] :=
  ⟨by decide +kernel, by decide +kernel, by decide +kernel, by decide +kernel,
    ⟨by decide +kernel, by decide +kernel, by decide, unasked_of (by decide +kernel)⟩, by decide +kernel, by decide +kernel,
    by decide +kernel, rfl⟩

/-- A second class, and the set that exchanges its code with the jaw's. -/
def clamp : ClassEntry := { jaw with code := 0x0301 }
def exchanged : List EditItem := [.cls 0 clamp, .cls 1 jaw]
def twoClasses : State := { base with mgt := { base.mgt with classes := base.mgt.classes.set 1 clamp } }

/-- A set of a configuration and two classes; an exchange, with a part of each class, one of them latched. -/
theorem witness_ApplicationReactsToOneItem_of_several :
    (EditsOnce (.config 6 edgeConfig :: exchanged) ∧ (.config 6 edgeConfig :: exchanged) ≠ []) ∧
      (let s := staged exchanged (atPos 8 { heldJaw with identity := some { jawId with cls := 0x0301 }, classIndex := some 1, latch := true }
         (atPos 6 heldJaw twoClasses))
       s.mgt.hold = false ∧ s.mgt.edits = [.cls 0 clamp, .cls 1 jaw] ∧ clamp.code = s.mgt.classes[(1 : ClassIdx)].code ∧
        jaw.code = s.mgt.classes[(0 : ClassIdx)].code ∧ clamp.code ≠ jaw.code ∧ clamp.code ≠ 0 ∧ jaw.code ≠ 0 ∧
        s.run[(6 : Pos)].classIndex = some 0 ∧ classCode s 6 = some jaw.code ∧ s.run[(6 : Pos)].latch = false ∧
        s.run[(8 : Pos)].classIndex = some 1 ∧ classCode s 8 = some clamp.code ∧ s.run[(8 : Pos)].latch = true) := by
  unfold EditsOnce
  decide +kernel

/-- The exchange gives the part the other index, score 0 and a NEW round, and clears the set. -/
theorem test_exchange_of_two_codes :
    let t := applyEvent (staged exchanged (atPos 6 heldJaw twoClasses))
    t.run[6].classIndex = some 1 ∧ t.run[6].score = 0 ∧ t.sch.queue = [{ position := 6, kind := .new }] ∧
      t.mgt.notices.length = 1 ∧ t.mgt.edits = [] := by decide +kernel

/-- A jaw's step to GENUINE at position 48 with a negative score, in cycle 0x1234; with its bytes in the layout of 08. -/
def stepped : Notice :=
  { position := 47, before := .undecided, after := .genuine, reason := .odoOk, cls := 0x0214, serial := jawId.serial, score := -2,
    cycle := 0x1234 }
def noticed : State := { base with mgt := { base.mgt with notices := [stepped, { stepped with position := 0 }] } }

theorem test_notice_layout :
    encodeNotice stepped = [48, 0x12, 2, 0, 0x02, 0x14, 0x00, 0xA1, 0x3C, 0x47, 0x2B, 0x10, 0xFF, 0xFE, 0x12, 0x34] := by decide +kernel

/-- A drain of one of two notices, of both, and of none; and one without its maximum. -/
theorem witness_NoticeDrainReturnsTheOldest :
    (Asks noticed (request 0x48 [1]) 0x48 [1] ∧ 1 = min (min (1 : Byte).toNat 15) noticed.mgt.notices.length) ∧
      (Asks noticed (request 0x48 [255]) 0x48 [255] ∧ 2 = min (min (255 : Byte).toNat 15) noticed.mgt.notices.length ∧
        2 = noticed.mgt.notices.length) ∧
      (Asks base (request 0x48 [255]) 0x48 [255] ∧ 0 = min (min (255 : Byte).toNat 15) base.mgt.notices.length) ∧
      (Arrives base (request 0x48 []) 0x48 ∧ (request 0x48 []).payload.length ≠ 1) :=
  ⟨⟨asks_of (by decide +kernel) (by decide +kernel) rfl, by decide +kernel⟩,
    ⟨asks_of (by decide +kernel) (by decide +kernel) rfl, by decide +kernel⟩,
    ⟨asks_of (by decide +kernel) (by decide +kernel) rfl, by decide +kernel⟩, arrives_of (by decide +kernel) (by decide +kernel), by decide⟩

theorem witness_AttentionIsReadAndMasked :
    Arrives base (request 0x49 []) 0x49 ∧ (Asks base (request 0x4A [31]) 0x4A [31] ∧ (31 : Byte).toNat < 32) ∧
      (Asks base (request 0x4A [32]) 0x4A [32] ∧ 32 ≤ (32 : Byte).toNat) ∧ Arrives base (request 0x4A []) 0x4A :=
  ⟨arrives_of (by decide +kernel) (by decide +kernel), ⟨asks_of (by decide +kernel) (by decide +kernel) rfl, by decide⟩,
    ⟨asks_of (by decide +kernel) (by decide +kernel) rfl, by decide⟩, arrives_of (by decide +kernel) (by decide +kernel)⟩

theorem witness_PositionRequestsFollowThePhase :
    ((request 0x50 [7, 7]).payload.length ≠ 1 ∧ Arrives base (request 0x50 [7, 7]) 0x50 ∧ (request 0x51 []).payload.length ≠ 1 ∧
        Arrives base (request 0x51 []) 0x51) ∧
    (Asks base (request 0x50 [49]) 0x50 [49] ∧ Asks base (request 0x51 [0]) 0x51 [0] ∧ 48 < (49 : Byte).toNat) ∧
      (Asks base (request 0x50 [48]) 0x50 [48] ∧ (48 : Byte).toNat = (47 : Pos).val + 1 ∧ base.run[(47 : Pos)].phase = .vacant) ∧
      (let s := atPos 6 heldJaw base
       Asks s (request 0x50 [7]) 0x50 [7] ∧ Asks s (request 0x51 [7]) 0x51 [7] ∧ (7 : Byte).toNat = (6 : Pos).val + 1 ∧
        s.run[(6 : Pos)].phase = .held ∧ s.run[(6 : Pos)].latch = false ∧ s.run[(6 : Pos)].identity ≠ none ∧
        s.run[(6 : Pos)].classIndex ≠ none ∧ Unasked s 6) ∧
      (sweepingUnknown.run[(6 : Pos)].phase = .held ∧ sweepingUnknown.run[(6 : Pos)].identity = none ∧ Unasked sweepingUnknown 6 ∧
        QueueGroups sweepingUnknown.sch.queue [] []) ∧
      (atPos 6 { heldJaw with latch := true } base).run[(6 : Pos)].latch = true :=
  ⟨⟨by decide, arrives_of (by decide +kernel) (by decide +kernel), by decide, arrives_of (by decide +kernel) (by decide +kernel)⟩,
    ⟨asks_of (by decide +kernel) (by decide +kernel) rfl, asks_of (by decide +kernel) (by decide +kernel) rfl, by decide⟩,
    ⟨asks_of (by decide +kernel) (by decide +kernel) rfl, by decide, by decide +kernel⟩,
    ⟨asks_of (by decide +kernel) (by decide +kernel) rfl, asks_of (by decide +kernel) (by decide +kernel) rfl, by decide,
      by decide +kernel, by decide +kernel, by decide +kernel, by decide +kernel, unasked_of (by decide +kernel)⟩,
    ⟨by decide +kernel, by decide +kernel, unasked_of (by decide +kernel), rfl, by simp, by simp⟩, by decide +kernel⟩

/-- The revocation of the jaw's lot. -/
def lotEntry : Revocation := { cls := 0x0214, lot := 0x00311F, scope := .wholeLot }
def listed : State := { base with revocations := [lotEntry] }

/-- A list of 512 serials of another class. -/
def listFull : State :=
  { base with revocations := (List.range 512).map (fun n => { cls := 0x0215, lot := 1, scope := .serial (BitVec.ofNat 48 n) }) }

theorem lot_asks (s : State) (h : s.live = true) (code : Byte)
    (g : testsPass ((request code (encodeRevocation lotEntry)).telegram 0x00 0x00 code) = true) :
    Asks s (request code (encodeRevocation lotEntry)) code (encodeRevocation lotEntry) := asks_of h g rfl

theorem listFull_ascends : RevocationsAscend listFull := by
  unfold RevocationsAscend listFull
  rw [List.pairwise_map]
  refine (List.pairwise_lt_range (n := 512)).imp_of_mem fun {a b} ha hb h => ?_
  have := List.mem_range.1 ha
  have := List.mem_range.1 hb
  simp only [Revocation.before, Scope.rank, BitVec.toNat_ofNat]
  rw [Nat.mod_eq_of_lt (by omega), Nat.mod_eq_of_lt (by omega)]
  simp [h]

set_option maxRecDepth 100000 in
theorem witness_RevokeInsertRevokesSeatedParts :
    (Asks listed (request 0x58 (encodeRevocation lotEntry)) 0x58 (encodeRevocation lotEntry) ∧ lotEntry.cls ≠ 0 ∧ lotEntry.cls ≠ 0xFFFF ∧
        RevocationsAscend listed ∧ lotEntry ∈ listed.revocations) ∧
      (RevocationsAscend listFull ∧ lotEntry ∉ listFull.revocations ∧ 512 ≤ listFull.revocations.length) ∧
      (lotEntry ∉ base.revocations ∧ base.revocations.length < 512 ∧ InsertHits lotEntry (atPos 6 heldJaw base).run[(6 : Pos)]) ∧
      (Arrives base (request 0x58 (be 2 0xFFFF ++ be 3 1 ++ [0] ++ be 6 0)) 0x58 ∧ UnfitRevocation (be 2 0xFFFF ++ be 3 1 ++ [0] ++ be 6 0)) := by
  refine ⟨⟨lot_asks _ (by decide +kernel) 0x58 (by decide +kernel), by decide, by decide, by unfold RevocationsAscend; decide +kernel, by decide +kernel⟩,
    ⟨listFull_ascends, fun h => ?_, le_of_eq (by simp [listFull])⟩,
    ⟨by decide +kernel, by decide +kernel, ⟨by decide +kernel, by decide +kernel, jawId, by decide +kernel, rfl, rfl, .inl rfl⟩⟩,
    ⟨arrives_of (by decide +kernel) (by decide +kernel), .inr ⟨0xFFFF, 1, 0, 0, rfl, .inr (.inl rfl)⟩⟩⟩
  obtain ⟨n, -, e⟩ := List.mem_map.1 h
  exact absurd (congrArg Revocation.cls e) (show (0x0215 : Code) ≠ 0x0214 by decide)

theorem witness_RevokeRemoveAndClear :
    (Asks listed (request 0x59 (encodeRevocation lotEntry)) 0x59 (encodeRevocation lotEntry) ∧ listed.revocations = [] ++ lotEntry :: [] ∧
        lotEntry ∉ ([] : List Revocation)) ∧
      (Asks base (request 0x59 (encodeRevocation lotEntry)) 0x59 (encodeRevocation lotEntry) ∧ lotEntry ∉ base.revocations) ∧
      (Arrives base (request 0x59 []) 0x59 ∧ UnfitRevocation []) ∧ Arrives listed (request 0x5A []) 0x5A :=
  ⟨⟨lot_asks _ (by decide +kernel) 0x59 (by decide +kernel), rfl, by simp⟩, ⟨lot_asks _ (by decide +kernel) 0x59 (by decide +kernel), by decide +kernel⟩,
    ⟨arrives_of (by decide +kernel) (by decide +kernel), .inl (by decide)⟩, arrives_of (by decide +kernel) (by decide +kernel)⟩

/-- A boundary of 4 protects slot 4 and page 1, and leaves slot 3 and page 0. -/
def guarded (op : KeyOp) : State := { base with kst := { base.kst with boundary := 4, op } }

theorem key_asks (s : State) (h : s.live = true) (slot : SlotNo)
    (g : testsPass ((request 0x60 ([BitVec.ofNat 8 slot.val] ++ be 16 (0x5A : Key).toNat)).telegram 0x00 0x00 0x60) = true) :
    Asks s (request 0x60 ([BitVec.ofNat 8 slot.val] ++ be 16 (0x5A : Key).toNat)) 0x60 ([BitVec.ofNat 8 slot.val] ++ be 16 (0x5A : Key).toNat) :=
  asks_of h g rfl

theorem witness_KeyRequestsStartOperations :
    (Asks (guarded .idle) (request 0x60 ([4] ++ be 16 0x5A)) 0x60 ([BitVec.ofNat 8 (4 : SlotNo).val] ++ be 16 (0x5A : Key).toNat) ∧
        (guarded .idle).kst.boundary ≤ (4 : SlotNo).val) ∧
      (Asks (guarded .idle) (request 0x60 ([3] ++ be 16 0x5A)) 0x60 ([BitVec.ofNat 8 (3 : SlotNo).val] ++ be 16 (0x5A : Key).toNat) ∧
        (3 : SlotNo).val < (guarded .idle).kst.boundary ∧ (guarded .idle).kst.slots[(3 : SlotNo)] = .blank ∧ (guarded .idle).kst.op = .idle) ∧
      challenged.kst.slots[(2 : SlotNo)] ≠ .blank ∧ (guarded (.epochUpdate 4)).kst.op ≠ .idle ∧
      (Arrives base (request 0x60 ([16] ++ be 16 0)) 0x60 ∧ 16 ≤ ((request 0x60 ([16] ++ be 16 0)).payload.getD 0 0).toNat) ∧
      (Asks (guarded .idle) (request 0x61 [0]) 0x61 [BitVec.ofNat 8 (0 : Fin 4).val] ∧ 4 * (0 : Fin 4).val + 3 < (guarded .idle).kst.boundary ∧
        RecordsDistinct challenged ∧ EraseHits challenged 0 6) ∧
      (guarded .idle).kst.boundary ≤ 4 * (1 : Fin 4).val + 3 ∧
      (Arrives base (request 0x61 [4]) 0x61 ∧ 4 ≤ ((request 0x61 [4]).payload.getD 0 0).toNat) ∧
      (Arrives base (request 0x62 []) 0x62 ∧ (request 0x62 []).payload.length ≠ 1) ∧
      (Asks (guarded .idle) (request 0x62 [17]) 0x62 [17] ∧ Asks (guarded .idle) (request 0x62 [4]) 0x62 [4] ∧
        Asks (guarded .idle) (request 0x62 [3]) 0x62 [3]) :=
  ⟨⟨key_asks _ (by decide +kernel) 4 (by decide +kernel), by decide +kernel⟩, ⟨key_asks _ (by decide +kernel) 3 (by decide +kernel), by decide +kernel⟩,
    by decide +kernel, by decide +kernel, ⟨arrives_of (by decide +kernel) (by decide +kernel), by decide⟩,
    ⟨asks_of (by decide +kernel) (by decide +kernel) rfl, by decide +kernel, distinct_of (by decide +kernel),
      1, asking (.challenge nonce41 2) .issued, nonce41, 2, by decide +kernel, rfl, rfl, by decide⟩, by decide +kernel,
    ⟨arrives_of (by decide +kernel) (by decide +kernel), by decide⟩, ⟨arrives_of (by decide +kernel) (by decide +kernel), by decide⟩,
    asks_of (by decide +kernel) (by decide +kernel) rfl, asks_of (by decide +kernel) (by decide +kernel) rfl,
    asks_of (by decide +kernel) (by decide +kernel) rfl⟩

/-- A HELD part that waits for its key, with the program of its slot due at this tick. -/
def keyed : State :=
  atPos 6 { heldJaw with keyMissing := true } { base with now := 50, kst := { base.kst with op := .programming 2 0x5A 50 } }

theorem none_awaits {s : State} (h : ∀ i : RecNo, arrivalOrder s i = none) : NoneAwaits s :=
  fun i n x => by rw [awaiting_iff, h i] at x; cases x

theorem witness_CompletionsLeaveTheirResults :
    (keyed.live = true ∧ keyed.kst.op = .programming 2 0x5A 50 ∧ 50 ≤ keyed.now ∧ NoneAwaits keyed ∧
        (keyed.run[(6 : Pos)].phase = .held ∧ keyed.run[(6 : Pos)].keyMissing = true ∧
          ∃ e, classOf keyed keyed.run[(6 : Pos)] = some e ∧ e.keySlot = 2) ∧ keyed.run[(6 : Pos)].latch = false ∧ Unasked keyed 6) ∧
      (∀ slot key due, ({ keyed with now := 49 } : State).kst.op = .programming slot key due → ({ keyed with now := 49 } : State).now < due) ∧
      ((guarded (.erasing 0 0)).kst.op = .erasing 0 0 ∧ 0 ≤ (guarded (.erasing 0 0)).now) ∧
      ((guarded (.protecting 3 0)).kst.op = .protecting 3 0) ∧ (State.reset.kst.op = .epochUpdate 4 ∧ 4 ≤ ({ State.reset with now := 4 } : State).now) ∧
      ∀ due, State.reset.kst.op = .epochUpdate due → State.reset.now < due := by
  refine ⟨⟨by decide +kernel, rfl, by decide +kernel, none_awaits (by decide +kernel),
      ⟨by decide +kernel, by decide +kernel, jaw, by decide +kernel, rfl⟩, by decide +kernel, unasked_of (by decide +kernel)⟩,
    fun slot key due h => ?_, ⟨rfl, Nat.zero_le _⟩, rfl, ⟨rfl, by decide⟩, fun due h => ?_⟩
  · cases h; decide
  · cases h; decide

/-- A program of slot 3 is due while an answer waits for slot 2; a HELD part without the latch, and one with it, wait for their
keys. -/
theorem witness_CompletionsLeaveTheirResults_of_waiting :
    (let s : State := { awaiting with now := 1000, kst := { awaiting.kst with op := .programming 3 0x5A 1000 } }
     s.live = true ∧ RecordsDistinct s ∧ AwaitingKey s 1 1) ∧
      keyServed keyed 2 6 = true ∧ keyServed keyed 3 6 = false ∧
      (let s := atPos 6 { heldJaw with keyMissing := true, latch := true } keyed
       keyServed s 2 6 = true ∧ s.run[(6 : Pos)].latch = true) :=
  ⟨⟨by decide +kernel, distinct_of (by decide +kernel), awaiting_iff.2 (by decide +kernel)⟩, by decide +kernel, by decide +kernel,
    by decide +kernel⟩

/-- The answer that waits is verified when the store is free: here it is wrong, and the round goes on. -/
theorem test_waiting_answer_is_verified :
    let t := ran (.programCompletion true) { awaiting with kst := { awaiting.kst with op := .programming 3 0x5A 1000 } }
    t.run[6].score = -300 ∧ t.sch.records[1] = none ∧ t.kst.op = .idle := by decide +kernel

theorem witness_GateActionFollowsTheVerdict :
    (State.reset.device = .starting ∧ State.reset.run[(6 : Pos)].phase ≠ .disabled) ∧
      (let s := atPos 6 heldJaw base
       s.device = .running ∧ s.run[(6 : Pos)].phase ≠ .disabled ∧ s.run[(6 : Pos)].phase ≠ .vacant ∧ s.run[(6 : Pos)].released = false ∧
        classOf s s.run[(6 : Pos)] = some jaw ∧ s.run[(6 : Pos)].verdict = .genuine ∧ s.run[(6 : Pos)].worn = false) ∧
      (let s := atPos 6 { heldJaw with verdict := .undecided, classIndex := none } base
       classOf s s.run[(6 : Pos)] = none ∧ s.run[(6 : Pos)].verdict = .undecided) := by decide +kernel

/-- A clamp field at byte 2 fits a SHORT slot, one at byte 3 is absent; a value at its ceiling, and one above it. -/
theorem witness_SlotIsRewrittenByTheAction :
    65535 < 65536 ∧
      (some 2 = if Framing.short = .short ∧ (gateOf 0 1 (some 2)).clampOffset.any (fun o => decide (3 ≤ o)) = true then none
        else (gateOf 0 1 (some 2)).clampOffset) ∧
      (none = if Framing.short = .short ∧ (gateOf 0 1 (some 3)).clampOffset.any (fun o => decide (3 ≤ o)) = true then none
        else (gateOf 0 1 (some 3)).clampOffset) ∧
      ([0x11, 0x00, 0x04, 0x00] : Bytes) = [0x11, 0x00] ++ [0x04, 0x00] ++ [] ∧ some 2 = some ([0x11, 0x00] : Bytes).length ∧
      (0x04 : Byte).toNat * 256 + (0x00 : Byte).toNat ≤ 1024 ∧ 1024 < (0x04 : Byte).toNat * 256 + (0x01 : Byte).toNat := by decide +kernel

theorem base_scores : ScoresInRange base := by
  unfold ScoresInRange
  decide +kernel

/-- A HELD part and the sighting entry it holds. -/
def sighted : State :=
  { atPos 6 heldJaw base with sightings := [{ cls := 0x0214, serial := jawId.serial, lastOdo := none, holders := [6] }] }

theorem sighted_none : ∀ i : RecNo, sighted.sch.records[i] = none := by decide +kernel

theorem sighted_elsewhere : ∀ p : Pos, p ≠ 6 → sighted.run[p].identity = none := by decide +kernel

theorem sighted_orderly : Orderly sighted where
  records := distinct_of (by decide +kernel)
  queueOnce := by decide +kernel
  queueGroups := ⟨[], [], rfl, by simp, by simp⟩
  queued := by intro e h; cases h
  identified := fun _ _ h => (no_records sighted_none h).elim
  challenged := fun _ _ _ _ h => (no_records sighted_none h).elim
  seated := by decide +kernel
  unidentified := by decide +kernel
  latched := by decide +kernel
  revoked := by decide +kernel
  disabled := by decide +kernel
  starting := by decide +kernel
  locked := by decide +kernel
  edits := by unfold EditsOnce; decide +kernel
  sightedOnce := by decide +kernel
  holders := by
    intro e he p hp
    rw [List.mem_singleton.1 he] at hp ⊢
    rw [List.mem_singleton.1 hp]
    exact ⟨jawId, by decide +kernel, rfl, rfl⟩
  sighted := by
    intro p id h
    by_cases hp : p = 6
    · exact ⟨_, List.mem_singleton.2 rfl, by rw [hp]; exact List.mem_singleton.2 rfl⟩
    · rw [sighted_elsewhere p hp] at h; cases h
  cacheFits := by decide +kernel

theorem witness_EveryStepKeepsTheBounds :
    step base = .next (tick base) ∧ ScoresInRange base ∧ QueuesFit base ∧ step sighted = .next (tick sighted) ∧ Orderly sighted :=
  ⟨rfl, base_scores, ⟨by decide +kernel, by decide +kernel, by decide +kernel, by decide +kernel, by decide +kernel⟩, rfl,
    sighted_orderly⟩

/-- An operation whose guard counts: a program below the boundary that a loss of power aborts. -/
theorem witness_ProtectedSlotsNeverChange :
    (let s : State := { guarded (.programming 3 0x5A 9) with pending := [.powerLoss] }
     OperationGuarded s.kst ∧ s.pending = [.powerLoss] ∧ s.kst.boundary ≤ (4 : SlotNo).val) ∧
      step (guarded (.programming 3 0x5A 9)) = .next (tick (guarded (.programming 3 0x5A 9))) := by
  refine ⟨⟨?_, rfl, by decide +kernel⟩, rfl⟩
  show (3 : SlotNo).val < 4
  decide

theorem witness_EveryStepKeepsTablesDistinct :
    step challenged = .next (tick challenged) ∧ RecordsDistinct challenged ∧ RevocationsAscend listed :=
  ⟨rfl, distinct_of (by decide +kernel), by unfold RevocationsAscend; decide +kernel⟩

end Sys2Proof.Tests
end

section
/-! PROOFS. The fold unit (04): its words as numbers, its rounds one at a time, and the fold's obligation. -/

namespace Sys2Proof.Machine

/-! ### The words as numbers -/

/-- A left rotation is a shift left with the bits that left the word put in below. -/
theorem rotateLeft_toNat (x : Word32) (n : Nat) (h : n < 32) :
    (x.rotateLeft n).toNat = x.toNat * 2 ^ n % 2 ^ 32 + x.toNat / 2 ^ (32 - n) := by
  have low : x.toNat / 2 ^ (32 - n) < 2 ^ n :=
    Nat.div_lt_of_lt_mul (by rw [← Nat.pow_add, Nat.sub_add_cancel h.le]; exact x.isLt)
  have high : x.toNat * 2 ^ n % 2 ^ 32 = 2 ^ n * (x.toNat % 2 ^ (32 - n)) := by
    rw [Nat.mul_comm, ← Nat.mul_mod_mul_left, ← Nat.pow_add, Nat.add_sub_cancel' h.le]
  rw [BitVec.toNat_rotateLeft, Nat.mod_eq_of_lt h, Nat.shiftLeft_eq, Nat.shiftRight_eq_div_pow, high,
    Nat.two_pow_add_eq_or_of_lt low]

theorem keyWord_toNat (key : Key) (i : Nat) :
    (keyWord key i).toNat = key.toNat / 2 ^ (96 - 32 * i) % 2 ^ 32 := by
  rw [keyWord, BitVec.extractLsb'_toNat, Nat.shiftRight_eq_div_pow]

/-- m0, the upper half of the nonce (R83). -/
theorem nonce_upper_toNat (nonce : Nonce) : (nonce.extractLsb' 32 32).toNat = nonce.toNat / 2 ^ 32 := by
  have := nonce.isLt
  rw [BitVec.extractLsb'_toNat, Nat.shiftRight_eq_div_pow, Nat.mod_eq_of_lt (by omega)]

/-- m1, the lower half of the nonce (R83). -/
theorem nonce_lower_toNat (nonce : Nonce) : (nonce.extractLsb' 0 32).toNat = nonce.toNat % 2 ^ 32 := by
  rw [BitVec.extractLsb'_toNat, Nat.shiftRight_zero]

/-- m2, the upper 32 bits of the serial number (R83). -/
theorem serial_upper_toNat (serial : Serial) : (serial.extractLsb' 16 32).toNat = serial.toNat / 2 ^ 16 := by
  have := serial.isLt
  rw [BitVec.extractLsb'_toNat, Nat.shiftRight_eq_div_pow, Nat.mod_eq_of_lt (by omega)]

/-- m3, the lower 16 bits of the serial number above the class code (R83). -/
theorem serial_class_toNat (serial : Serial) (cls : Code) :
    (serial.extractLsb' 0 16 ++ cls : Word32).toNat = serial.toNat % 2 ^ 16 * 65536 + cls.toNat := by
  rw [BitVec.toNat_append, BitVec.extractLsb'_toNat, Nat.shiftRight_zero, ← Nat.shiftLeft_add_eq_or_of_lt cls.isLt,
    Nat.shiftLeft_eq]

/-- m5, the lot number (R83). -/
theorem lot_toNat (lot : Lot) : (lot.zeroExtend 32).toNat = lot.toNat :=
  BitVec.toNat_setWidth_of_le (by decide)

/-! ### The rounds -/

/-- The four steps of a round in arithmetic modulo 2^32 (R84). -/
theorem foldRound_steps {m k : Word32} {w t : FoldWords} (h : t = foldRound m k w) :
    ∃ a1 b3 : Nat,
      a1 = (w.a.toNat + m.toNat) % 2 ^ 32 ∧
      t.a.toNat = (a1 * 2 ^ 5 % 2 ^ 32 + a1 / 2 ^ 27) ^^^ w.b.toNat ∧
      b3 = (w.b.toNat + t.a.toNat + k.toNat) % 2 ^ 32 ∧
      t.b.toNat = b3 * 2 ^ 11 % 2 ^ 32 + b3 / 2 ^ 21 := by
  have ha : t.a = (w.a + m).rotateLeft 5 ^^^ w.b := by rw [h]; rfl
  have hb : t.b = (w.b + t.a + k).rotateLeft 11 := by rw [h]; rfl
  refine ⟨(w.a + m).toNat, (w.b + t.a + k).toNat, BitVec.toNat_add .., ?_, ?_, ?_⟩
  · rw [ha, BitVec.toNat_xor, rotateLeft_toNat _ 5 (by decide)]
  · rw [BitVec.toNat_add, BitVec.toNat_add, Nat.mod_add_mod]
  · rw [hb, rotateLeft_toNat _ 11 (by decide)]

/-- The words a schedule adds in round `r`. -/
def roundWords (rounds : List (Word32 × Word32)) (r : Nat) : Word32 × Word32 := rounds.getD r (0, 0)

/-- The working words after the first `r` rounds of a schedule. -/
def wordsAfter (rounds : List (Word32 × Word32)) (w : FoldWords) (r : Nat) : FoldWords :=
  (rounds.take r).foldl (fun w x => foldRound x.1 x.2 w) w

theorem wordsAfter_succ (rounds : List (Word32 × Word32)) (w : FoldWords) (r : Nat) (h : r < rounds.length) :
    wordsAfter rounds w (r + 1) =
      foldRound (roundWords rounds r).1 (roundWords rounds r).2 (wordsAfter rounds w r) := by
  rw [wordsAfter, ← List.take_concat_get' rounds r h, List.foldl_append, roundWords, List.getD_eq_getElem _ _ h]
  rfl

/-- Step 3 takes the key word two on from the round's number, counted anew from the first finishing round (R84, R85). -/
theorem schedule_key (key : Key) (m0 m1 m2 m3 m4 m5 : Word32) (r : Nat) (h : r < 10) :
    (roundWords (foldSchedule key m0 m1 m2 m3 m4 m5) r).2 = keyWord key ((if r < 6 then r + 2 else r - 6 + 2) % 4) := by
  interval_cases r <;> rfl

/-- Step 1 of a finishing round takes the key words in order (R85). -/
theorem schedule_finishing (key : Key) (m0 m1 m2 m3 m4 m5 : Word32) (j : Nat) (h : j < 4) :
    (roundWords (foldSchedule key m0 m1 m2 m3 m4 m5) (6 + j)).1 = keyWord key j := by
  interval_cases j <;> rfl

/-! ### A verification and the check value -/

/-- The schedule of a verification (R83, R85). -/
def verifySchedule (key : Key) (nonce : Nonce) (id : Identity) (odo : Word32) : List (Word32 × Word32) :=
  foldSchedule key (nonce.extractLsb' 32 32) (nonce.extractLsb' 0 32) (id.serial.extractLsb' 16 32)
    (id.serial.extractLsb' 0 16 ++ id.cls) odo (id.lot.zeroExtend 32)

/-- The working words of a verification after `r` of its rounds, from k0 and k1 (R84). -/
def verifyWords (key : Key) (nonce : Nonce) (id : Identity) (odo : Word32) (r : Nat) : FoldWords :=
  wordsAfter (verifySchedule key nonce id odo) { a := keyWord key 0, b := keyWord key 1 } r

theorem verifyWords_succ (key : Key) (nonce : Nonce) (id : Identity) (odo : Word32) (r : Nat) (h : r < 10) :
    verifyWords key nonce id odo (r + 1) =
      foldRound (roundWords (verifySchedule key nonce id odo) r).1 (keyWord key ((if r < 6 then r + 2 else r - 6 + 2) % 4))
        (verifyWords key nonce id odo r) := by
  rw [← schedule_key key _ _ _ _ _ _ r h]
  exact wordsAfter_succ _ _ r h

/-- The response word is read off the working words after the tenth round (R85). -/
theorem responseWord_eq (key : Key) (nonce : Nonce) (id : Identity) (odo : Word32) :
    responseWord key nonce id odo =
      (verifyWords key nonce id odo 10).a ^^^ (verifyWords key nonce id odo 10).b := rfl

/-- The check value folds the words of a verification with every input zero (R87). -/
theorem checkValue_programmed (key : Key) :
    checkValue (.programmed key) = responseWord key 0 { serial := 0, cls := 0, lot := 0 } 0 := rfl

/-- With zero words a round leaves zero working words alone (R87). -/
theorem foldRound_zero : foldRound 0 0 { a := 0, b := 0 } = { a := 0, b := 0 } := by decide

theorem keyWord_zero (i : Nat) : keyWord 0 i = 0 := BitVec.extractLsb'_zero

theorem checkValue_zero_key : checkValue (.programmed 0) = 0 := by
  simp only [checkValue, foldWord, foldSchedule, keyWord_zero, List.foldl_cons, List.foldl_nil, foldRound_zero]
  exact BitVec.xor_self

/-! ### The obligation -/

/-- Settles O56: the working words of `verifyWords` are the witnesses, each one `foldRound` after the one before. -/
theorem foldFollowsItsRounds : Obligations.FoldFollowsItsRounds := by
  intro key nonce id odo
  refine ⟨fun i => (keyWord key i).toNat, fun r => (roundWords (verifySchedule key nonce id odo) r).1.toNat,
    fun r => (verifyWords key nonce id odo r).a.toNat, fun r => (verifyWords key nonce id odo r).b.toNat,
    fun i _ => keyWord_toNat key i, nonce_upper_toNat nonce, nonce_lower_toNat nonce,
    serial_upper_toNat id.serial, serial_class_toNat id.serial id.cls, rfl, lot_toNat id.lot, ?finishing, rfl, rfl, ?rounds,
    ?response, checkValue_programmed key, rfl, rfl, checkValue_zero_key⟩
  case finishing => exact fun j hj => congrArg BitVec.toNat (schedule_finishing key _ _ _ _ _ _ j hj)
  case rounds => exact fun r hr => foldRound_steps (verifyWords_succ key nonce id odo r hr)
  case response => exact (congrArg BitVec.toNat (responseWord_eq key nonce id odo)).trans (BitVec.toNat_xor ..)

end Sys2Proof.Machine
end

section
/-! PROOFS. The revocation list (06): what a request to node 0 does once it has arrived, how REVOKE-REMOVE and REVOKE-CLEAR
answer, and their obligation. -/

namespace Sys2Proof.Machine

/-! ### A request taken by MGT and its answer (R144, R154) -/

/-- The tests of R144 on a frame's telegram are those its row makes. -/
theorem frame_good_of_tests {f : Frame} {node origin code : Byte} (h : ServiceTests (f.telegram node origin code)) :
    f.good node origin code = true := by
  obtain ⟨-, hcheck, hlength, hpayload, horigin, htag, hnode⟩ := h
  have hrest : (f.payload ++ be 2 f.check.toNat).length = f.length.toNat + 2 := by
    simp only [Frame.telegram, List.length_append, List.length_cons, be_length, List.cons_append, List.nil_append,
      List.getD_cons_succ, List.getD_cons_zero] at hlength ⊢
    omega
  have hgood : checkGood (f.telegram node origin code) = true := beq_iff_eq.2 hcheck
  have hparse : parseService (f.telegram node origin code) = some
      { node, origin, tag := f.tag, code, payload := (f.payload ++ be 2 f.check.toNat).take f.length.toNat } :=
    if_pos ⟨hgood, hrest, hpayload, horigin, htag, hnode⟩
  rw [Frame.good, hparse, Option.isSome_some]

/-- A request that has arrived is taken. -/
theorem onRequest_of_arrives {s : State} {f : Frame} {code : Byte} (h : Arrives s f code) (take : State → State) :
    onRequest code f take s = .next (take s) := by
  have hgood : f.good 0 originMaster code = true := frame_good_of_tests h.good
  rw [onRequest, whenLive, if_pos h.live, if_pos hgood]

theorem reply_answers (s : State) (tag code : Byte) (payload : Bytes) : Answers s (reply tag code payload s) tag code payload :=
  ⟨portU_emitU _ _ s, emitU_frame _ _ s⟩

theorem replyOk_answers (s : State) (tag : Byte) (payload : Bytes) : Answers s (replyOk tag payload s) tag 0x80 payload :=
  reply_answers s tag codeOk payload

theorem refuse_refuses (s : State) (tag : Byte) (cause : Cause) : Refuses s (refuse tag cause s) tag cause.code :=
  reply_answers s tag codeRefused [cause.code]

theorem exec_revokeRemove {s : State} {f : Frame} (h : Arrives s f 0x59) :
    exec (.revokeRemove f) s = .next (takeRevokeRemove f.tag f.payload s) :=
  onRequest_of_arrives h _

theorem exec_revokeClear {s : State} {f : Frame} (h : Arrives s f 0x5A) :
    exec (.revokeClear f) s = .next (takeRevokeClear f.tag s) :=
  onRequest_of_arrives h _

/-! ### The range test of an entry (R107) -/

/-- The numbers at the places of a REVOCATION that its range test reads. -/
theorem revocation_fields (cls : Code) (lot : Lot) (scope : Byte) (serial : Serial) :
    let b := be 2 cls.toNat ++ be 3 lot.toNat ++ [scope] ++ be 6 serial.toNat
    fieldNat 0 2 b = cls.toNat ∧ fieldNat 5 1 b = scope.toNat ∧ fieldNat 6 6 b = serial.toNat := by
  have hscope : [scope] = be 1 scope.toNat := by simp [be]
  simp only [hscope, List.append_assoc]
  refine ⟨fieldNat_be 2 _ _ cls.isLt, ?_, ?_⟩
  · iterate 2 rw [fieldNat_skip _ _ _ _ (by simp), be_length]
    exact fieldNat_be 1 _ _ scope.isLt
  · iterate 3 rw [fieldNat_skip _ _ _ _ (by simp), be_length]
    exact fieldNat_be_end 6 _ serial.isLt

/-- Twelve bytes with a class, scope or serial out of range are no entry. -/
theorem decodeRevocation_unfit (cls : Code) (lot : Lot) (scope : Byte) (serial : Serial)
    (h : cls = 0 ∨ cls = 0xFFFF ∨ 1 < scope.toNat ∨ (scope = 0 ∧ serial ≠ 0)) :
    decodeRevocation (be 2 cls.toNat ++ be 3 lot.toNat ++ [scope] ++ be 6 serial.toNat) = none := by
  obtain ⟨hcls, hscope, hserial⟩ := revocation_fields cls lot scope serial
  have hrange : cls.toNat = 0 ∨ cls.toNat = 65535 ∨ 1 < scope.toNat ∨ (scope.toNat = 0 ∧ serial.toNat ≠ 0) := by
    obtain rfl | rfl | high | ⟨rfl, hne⟩ := h
    · exact .inl rfl
    · exact .inr (.inl rfl)
    · exact .inr (.inr (.inl high))
    · exact .inr (.inr (.inr ⟨rfl, fun x => hne (BitVec.eq_of_toNat_eq x)⟩))
  rw [decodeRevocation, hcls, hscope, hserial]
  exact if_pos hrange

/-! ### The outcomes of REVOKE-REMOVE (R110) -/

theorem takeRevokeRemove_unfit {payload : Bytes} (h : UnfitRevocation payload) (tag : Byte) (s : State) :
    takeRevokeRemove tag payload s = refuse tag .range s := by
  unfold takeRevokeRemove
  obtain hlength | ⟨cls, lot, scope, serial, rfl, hrange⟩ := h
  · exact if_pos hlength
  · rw [decodeRevocation_unfit cls lot scope serial hrange, ite_self]

/-- An entry in range is looked up in the list. -/
theorem takeRevokeRemove_entry {e : Revocation} (h0 : e.cls ≠ 0) (hF : e.cls ≠ 0xFFFF) (tag : Byte) (s : State) :
    takeRevokeRemove tag (encodeRevocation e) s =
      if s.revocations.contains e = true then
        replyOk tag (be 2 (s.revocations.idxOf e) ++ be 2 (s.revocations.length - 1))
          { s with revocations := s.revocations.erase e }
      else refuse tag .notFound s := by
  rw [takeRevokeRemove, if_neg (not_not.2 (encodeRevocation_length e)), decodeRevocation_encode e h0 hF]

theorem takeRevokeRemove_absent {e : Revocation} (h0 : e.cls ≠ 0) (hF : e.cls ≠ 0xFFFF) (tag : Byte) {s : State}
    (h : e ∉ s.revocations) : takeRevokeRemove tag (encodeRevocation e) s = refuse tag .notFound s := by
  rw [takeRevokeRemove_entry h0 hF, if_neg (fun c => h (List.contains_iff_mem.1 c))]

/-- The first entry equal to the one asked for is taken out, and the answer gives the number of entries before it. -/
theorem takeRevokeRemove_listed {e : Revocation} (h0 : e.cls ≠ 0) (hF : e.cls ≠ 0xFFFF) (tag : Byte) {s : State}
    {a b : List Revocation} (hlist : s.revocations = a ++ e :: b) (hfirst : e ∉ a) :
    takeRevokeRemove tag (encodeRevocation e) s =
      replyOk tag (be 2 a.length ++ be 2 (a ++ b).length) { s with revocations := a ++ b } := by
  have hmem : s.revocations.contains e = true := List.contains_iff_mem.2 (by simp [hlist])
  have hindex : s.revocations.idxOf e = a.length := by
    rw [hlist, List.idxOf_append_of_notMem hfirst, List.idxOf_cons_self, Nat.add_zero]
  have hleft : s.revocations.erase e = a ++ b := by
    rw [hlist, List.erase_append_right _ hfirst, List.erase_cons_head]
  have hcount : s.revocations.length - 1 = (a ++ b).length := by simp [hlist]
  rw [takeRevokeRemove_entry h0 hF, if_pos hmem, hindex, hleft, hcount]

/-! ### The obligation -/

/-- Settles O51: each request is taken as it arrives, and its outcome is read off the list as it stands. -/
theorem revokeRemoveAndClear : Obligations.RevokeRemoveAndClear := by
  refine ⟨fun s f e hasks h0 hF => ⟨fun habsent => ?absent, fun a b hlist hfirst => ?listed⟩,
    fun s f harrives hunfit => ?unfit, fun s f harrives => ?clear⟩
  case absent =>
    refine ⟨_, exec_revokeRemove hasks.toArrives, ?_⟩
    rw [hasks.payload, takeRevokeRemove_absent h0 hF _ habsent]
    exact refuse_refuses s f.tag .notFound
  case listed =>
    refine ⟨_, exec_revokeRemove hasks.toArrives, ?_⟩
    rw [hasks.payload, takeRevokeRemove_listed h0 hF _ hlist hfirst]
    exact replyOk_answers _ f.tag _
  case unfit =>
    refine ⟨_, exec_revokeRemove harrives, ?_⟩
    rw [takeRevokeRemove_unfit hunfit]
    exact refuse_refuses s f.tag .range
  case clear => exact ⟨_, exec_revokeClear harrives, replyOk_answers _ f.tag _⟩

end Sys2Proof.Machine
end

section
/-! PROOFS. The gate unit (07): which action a position takes and what an action leaves of an output slot, and the two
obligations about them. -/

namespace Sys2Proof.Machine

/-! ### The most restrictive action (R116, R120) -/

theorem GateAction.rank_eq_code (a : GateAction) : a.rank = a.code := by cases a <;> rfl

/-- The codes of R116 rise with the restriction. -/
theorem GateAction.strictest_code (a b : GateAction) : (a.strictest b).code = max a.code b.code := by
  rw [strictest, rank_eq_code, rank_eq_code, apply_ite GateAction.code]
  split_ifs with h
  · exact (max_eq_right h.le).symm
  · exact (max_eq_left (not_lt.1 h)).symm

theorem wornAction_not_worn (e : Option ClassEntry) (a : GateAction) : wornAction e false a = a := by cases e <;> rfl

/-! ### The rows of R118 -/

section
variable {s : State} {p : Pos}

theorem gateAction_starting (hstate : s.device = .starting) (hphase : s.run[p].phase ≠ .disabled) :
    gateAction s p = .block := if_pos ⟨hstate, hphase⟩

theorem gateAction_disabled (hphase : s.run[p].phase = .disabled) : gateAction s p = .pass := by
  rw [gateAction, if_neg (fun h => h.2 hphase), if_pos (.inl hphase)]

/-- In RUNNING the first row does not apply. -/
theorem gateAction_running (hstate : s.device = .running) :
    gateAction s p =
      if s.run[p].phase = .disabled ∨ s.run[p].phase = .vacant then .pass
      else if s.run[p].released = true then .pass
      else wornAction (classOf s s.run[p]) s.run[p].worn
        (verdictAction (classOf s s.run[p]) s.mgt.setup.unknownPolicy s.run[p].verdict) :=
  if_neg (fun h => by simp [hstate] at h)

theorem gateAction_vacant (hstate : s.device = .running) (hphase : s.run[p].phase = .vacant) : gateAction s p = .pass := by
  rw [gateAction_running hstate, if_pos (.inr hphase)]

theorem gateAction_released (hstate : s.device = .running) (hreleased : s.run[p].released = true) :
    gateAction s p = .pass := by
  rw [gateAction_running hstate, if_pos hreleased, ite_self]

/-- The last row: neither DISABLED nor VACANT nor released. -/
theorem gateAction_judged (hstate : s.device = .running) (hdisabled : s.run[p].phase ≠ .disabled)
    (hvacant : s.run[p].phase ≠ .vacant) (hreleased : s.run[p].released = false) :
    gateAction s p =
      wornAction (classOf s s.run[p]) s.run[p].worn
        (verdictAction (classOf s s.run[p]) s.mgt.setup.unknownPolicy s.run[p].verdict) := by
  rw [gateAction_running hstate, if_neg (not_or.2 ⟨hdisabled, hvacant⟩), if_neg (Bool.eq_false_iff.1 hreleased)]

end

/-! ### The verdict action (R119) -/

theorem verdictAction_bad_classless {v : Verdict} (h : v = .counterfeit ∨ v = .revoked) (unknown : GateAction) :
    verdictAction none unknown v = .block := by
  obtain rfl | rfl := h <;> rfl

theorem verdictAction_open_classless {v : Verdict} (h : v = .undecided ∨ v = .none) (unknown : GateAction) :
    verdictAction none unknown v = unknown := by
  obtain rfl | rfl := h <;> rfl

theorem verdictAction_of_class {v : Verdict} {e : ClassEntry} {base : GateAction} (unknown : GateAction)
    (h : (v = .genuine ∧ base = .pass) ∨ ((v = .counterfeit ∨ v = .revoked) ∧ base = e.policyCf) ∨
      (v = .undecided ∧ base = e.policyPending)) :
    verdictAction (some e) unknown v = base := by
  obtain ⟨rfl, rfl⟩ | ⟨rfl | rfl, rfl⟩ | ⟨rfl, rfl⟩ := h <;> rfl

/-- Settles O54: row by row of R118, and in the last row by the class and the verdict. -/
theorem gateActionFollowsTheVerdict : Obligations.GateActionFollowsTheVerdict := by
  intro s p
  refine ⟨gateAction_starting, gateAction_disabled,
    fun hstate h => h.elim (gateAction_vacant hstate) (gateAction_released hstate),
    fun hstate hdisabled hvacant hreleased => ?_⟩
  rw [gateAction_judged hstate hdisabled hvacant hreleased]
  constructor
  · intro hclass
    rw [hclass]
    exact ⟨fun hbad => verdictAction_bad_classless hbad _, fun hopen => verdictAction_open_classless hopen _⟩
  · intro e base hclass hbase
    rw [hclass, verdictAction_of_class _ hbase]
    refine ⟨fun hworn => ?_, fun hworn => ?_⟩
    · rw [hworn, wornAction_not_worn]
    · rw [hworn]
      exact base.strictest_code e.policyWorn

/-! ### The bytes that BLOCK writes (R122, R123) -/

theorem clampField_eq (framing : Framing) (c : PosConfig) :
    clampField framing c =
      if framing = .short ∧ c.clampOffset.any (fun o => decide (3 ≤ o)) = true then none else c.clampOffset := by
  unfold clampField
  cases c.clampOffset with
  | none => exact (ite_self _).symm
  | some o => simp only [Option.any_some, decide_eq_true_eq]

/-- A byte number BLOCK writes: in the gate field or in the clamp field. -/
def byteBlocked (framing : Framing) (c : PosConfig) (i : Nat) : Bool :=
  inGateField framing c i || (clampField framing c).any (fun o => i == o || i == o + 1)

theorem byteBlocked_iff (framing : Framing) (c : PosConfig) (i : Nat) :
    byteBlocked framing c i = true ↔
      (framing = .short ∧ 4 < c.gateOffset + c.gateLength) ∨ (c.gateOffset ≤ i ∧ i < c.gateOffset + c.gateLength) ∨
        clampField framing c = some i ∨ (0 < i ∧ clampField framing c = some (i - 1)) := by
  have hclamp : (clampField framing c).any (fun o => i == o || i == o + 1) = true ↔
      clampField framing c = some i ∨ (0 < i ∧ clampField framing c = some (i - 1)) := by
    cases clampField framing c with
    | none => simp
    | some o =>
      simp only [Option.any_some, Bool.or_eq_true, beq_iff_eq, Option.some.injEq]
      omega
  simp only [byteBlocked, Bool.or_eq_true, hclamp, inGateField, Bool.and_eq_true, beq_iff_eq, decide_eq_true_eq, or_assoc]

theorem blockSlot_eq (framing : Framing) (c : PosConfig) (slot : Bytes) :
    blockSlot framing c slot = slot.mapIdx (fun i b => if byteBlocked framing c i = true then 0 else b) := by
  unfold blockSlot byteBlocked
  cases clampField framing c <;> rfl

theorem blockSlot_getElem? {framing : Framing} {c : PosConfig} {slot : Bytes} {i : Nat} {b : Byte} (h : slot[i]? = some b) :
    (blockSlot framing c slot)[i]? = some (if byteBlocked framing c i = true then 0 else b) := by
  rw [blockSlot_eq, List.getElem?_mapIdx, h, Option.map_some]

/-- A CLAMP without a clamp field is a BLOCK. -/
theorem rewriteSlot_blocks {framing : Framing} {c : PosConfig} {a : GateAction}
    (h : a = .block ∨ (a = .clamp ∧ clampField framing c = none)) (ceiling : Nat) (slot : Bytes) :
    rewriteSlot framing c a ceiling slot = blockSlot framing c slot := by
  obtain rfl | ⟨rfl, hnone⟩ := h
  · rfl
  · simp only [rewriteSlot, hnone]

/-! ### The value that CLAMP limits (R122) -/

theorem rewriteSlot_clamps {framing : Framing} {c : PosConfig} {o : Nat} (h : clampField framing c = some o) (ceiling : Nat)
    (slot : Bytes) : rewriteSlot framing c .clamp ceiling slot = clampSlot o ceiling slot := by
  simp only [rewriteSlot, h]

theorem rewriteSlot_length (framing : Framing) (c : PosConfig) (a : GateAction) (ceiling : Nat) (slot : Bytes) :
    (rewriteSlot framing c a ceiling slot).length = slot.length := by
  cases a with
  | pass => rfl
  | block => exact List.length_mapIdx
  | clamp =>
    cases h : clampField framing c with
    | none => rw [rewriteSlot_blocks (.inr ⟨rfl, h⟩)]; exact List.length_mapIdx
    | some o => rw [rewriteSlot_clamps h]; exact List.length_mapIdx

/-- A rewriting that leaves each byte leaves the bytes. -/
theorem mapIdx_eq_self {f : Nat → Byte → Byte} {bs : Bytes} (h : ∀ i < bs.length, ∀ b, f i b = b) : bs.mapIdx f = bs :=
  List.ext_getElem List.length_mapIdx fun i _ hi => by rw [List.getElem_mapIdx, h i hi]

/-- The two bytes of the clamp field take the limited value, and the bytes around them stay. -/
theorem clampSlot_split (before : Bytes) (high low : Byte) (after : Bytes) (ceiling : Nat) :
    clampSlot before.length ceiling (before ++ [high, low] ++ after) =
      before ++ be 2 (min (beNat [high, low]) ceiling) ++ after := by
  have hvalue : fieldNat before.length 2 (before ++ [high, low] ++ after) = beNat [high, low] := by
    rw [List.append_assoc, fieldNat_skip _ _ _ _ le_rfl, Nat.sub_self, fieldNat, field_here 2 _ _ rfl]
  rw [clampSlot, hvalue, List.append_assoc, List.mapIdx_append, List.mapIdx_append, List.append_assoc]
  congr 1
  · exact mapIdx_eq_self fun i hi b => by rw [if_neg (by omega), if_neg (by omega)]
  congr 1
  · simp [be, Nat.add_comm]
  · refine mapIdx_eq_self fun i _ b => ?_
    rw [List.length_cons, List.length_cons, List.length_nil, if_neg (by omega), if_neg (by omega)]

theorem beNat_pair (high low : Byte) : beNat [high, low] = high.toNat * 256 + low.toNat := by simp [beNat]

theorem clampSlot_of_le {before : Bytes} {high low : Byte} {after : Bytes} {ceiling : Nat}
    (h : high.toNat * 256 + low.toNat ≤ ceiling) :
    clampSlot before.length ceiling (before ++ [high, low] ++ after) = before ++ [high, low] ++ after := by
  rw [clampSlot_split, beNat_pair, min_eq_left h, ← beNat_pair]
  exact congrArg (before ++ · ++ after) (be_beNat [high, low])

/-- The two bytes of a ceiling carry its value. -/
theorem be_two_value {v : Nat} (h : v < 65536) : ∃ high low : Byte, high.toNat * 256 + low.toNat = v ∧ be 2 v = [high, low] :=
  ⟨_, _, (beNat_pair _ _).symm.trans (beNat_be_of_lt 2 v h), rfl⟩

/-- Settles O55: BLOCK byte by byte, CLAMP by the slot cut at its clamp field. -/
theorem slotIsRewrittenByTheAction : Obligations.SlotIsRewrittenByTheAction := by
  intro framing c ceiling slot field hceiling hfield
  rw [← clampField_eq] at hfield
  subst hfield
  refine ⟨rfl, fun a => rewriteSlot_length framing c a ceiling slot, fun a i b ha hb => ?blocks,
    fun before high low after hslot hclamp => ?clamps⟩
  case blocks =>
    have hiff := byteBlocked_iff framing c i
    rw [rewriteSlot_blocks ha, blockSlot_getElem? hb]
    exact ⟨fun h => congrArg some (if_pos (hiff.2 h)), fun h => congrArg some (if_neg (mt hiff.1 h))⟩
  case clamps =>
    rw [rewriteSlot_clamps hclamp, hslot]
    refine ⟨clampSlot_of_le, fun hover => ?_⟩
    obtain ⟨h, l, hvalue, hbytes⟩ := be_two_value hceiling
    refine ⟨h, l, hvalue, ?_⟩
    rw [clampSlot_split, beNat_pair, min_eq_right hover.le, hbytes]

end Sys2Proof.Machine
end

section
/-! PROOFS. The format bus interface (08): what the tests of R144 and of R134 let through and discard, the routes of the two
ports, and their obligations. -/

namespace Sys2Proof.Machine

/-! ### The tests of R144 on the bytes -/

/-- On a whole header the model's one test is the tests of R144. -/
theorem serviceTests_cons_iff (kind node origin tag code len : Byte) (rest : Bytes) :
    ServiceTests (kind :: node :: origin :: tag :: code :: len :: rest) ↔
      checkGood (kind :: node :: origin :: tag :: code :: len :: rest) = true ∧ rest.length = len.toNat + 2 ∧
        len.toNat ≤ Config.payloadLimit ∧ (origin = originMaster ∨ origin = originVerifier) ∧ tag.toNat ≤ 15 ∧
        node.toNat ≤ 48 := by
  constructor
  · rintro ⟨-, hcheck, hlength, hpayload, horigin, htag, hnode⟩
    simp only [List.length_cons, List.getD_cons_succ, List.getD_cons_zero] at hlength
    exact ⟨beq_iff_eq.2 hcheck, by omega, hpayload, horigin, htag, hnode⟩
  · rintro ⟨hcheck, hlength, hpayload, horigin, htag, hnode⟩
    refine ⟨?_, beq_iff_eq.1 hcheck, ?_, hpayload, horigin, htag, hnode⟩ <;>
      simp only [List.length_cons, List.getD_cons_succ, List.getD_cons_zero] <;> omega

/-- A telegram that passes has its whole header. -/
theorem exists_header_of_tests {bytes : Bytes} (h : ServiceTests bytes) :
    ∃ kind node origin tag code len rest, bytes = kind :: node :: origin :: tag :: code :: len :: rest := by
  obtain ⟨hheader, -⟩ := h
  match bytes, hheader with
  | kind :: node :: origin :: tag :: code :: len :: rest, _ => exact ⟨kind, node, origin, tag, code, len, rest, rfl⟩

/-- A telegram that passes is read with its fields. -/
theorem parseService_of_tests {bytes : Bytes} (h : ServiceTests bytes) :
    parseService bytes = some
      { node := bytes.getD 1 0, origin := bytes.getD 2 0, tag := bytes.getD 3 0, code := bytes.getD 4 0,
        payload := (bytes.drop 6).take (bytes.getD 5 0).toNat } := by
  obtain ⟨kind, node, origin, tag, code, len, rest, rfl⟩ := exists_header_of_tests h
  exact if_pos ((serviceTests_cons_iff ..).1 h)

/-- A telegram that fails a test is not read. -/
theorem parseService_of_not_tests {bytes : Bytes} (h : ¬ ServiceTests bytes) : parseService bytes = none := by
  unfold parseService
  split
  · exact if_neg (mt (serviceTests_cons_iff ..).2 h)
  · rfl

theorem parseService_isSome_iff (bytes : Bytes) : (parseService bytes).isSome = true ↔ ServiceTests bytes := by
  by_cases h : ServiceTests bytes
  · simp [h, parseService_of_tests h]
  · simp [h, parseService_of_not_tests h]

/-- A SERVICE telegram that passes, read from its bytes after the kind byte. -/
theorem parseService_body {node origin tag code : Byte} {body : Bytes} (h : ServiceTests (0x03 :: body))
    (hhead : body.take 4 = [node, origin, tag, code]) :
    parseService (kindService :: body) =
      some { node, origin, tag, code, payload := (body.drop 5).take (body.length - 7) } := by
  have hcut : body = [node, origin, tag, code] ++ body.drop 4 := by rw [← hhead, List.take_append_drop]
  have hlength : ((0x03 :: body : Bytes).getD 5 0).toNat = body.length - 7 := by
    have := h.length
    rw [List.length_cons] at this
    omega
  have hparse := parseService_of_tests h
  rw [hlength] at hparse
  rw [hcut] at hparse ⊢
  exact hparse

/-! ### Damaged telegrams (R144) -/

theorem whenLive_of_live {s : State} (h : s.live = true) (f : State → State) : whenLive f s = .next (f s) := by
  rw [whenLive, if_pos h]

/-- A meaning that leaves the state as it is does so on every part. -/
theorem whenLive_of_fixed {f : State → State} {s : State} (h : f s = s) : whenLive f s = .next s := by
  rw [whenLive, h, ite_self]

theorem frame_not_good_of_damaged {f : Frame} {node origin code : Byte} (h : ¬ ServiceTests (f.telegram node origin code)) :
    ¬ f.good node origin code = true :=
  mt (parseService_isSome_iff _).1 h

theorem takeServiceU_of_damaged {bytes : Bytes} (h : ¬ ServiceTests bytes) (s : State) : takeServiceU bytes s = s := by
  rw [takeServiceU, parseService_of_not_tests h]

theorem takeServiceD_of_damaged {bytes : Bytes} (h : ¬ ServiceTests bytes) (s : State) : takeServiceD bytes s = s := by
  rw [takeServiceD, parseService_of_not_tests h]

theorem onRequest_of_damaged {f : Frame} {code : Byte} (h : ¬ ServiceTests (f.telegram 0x00 0x00 code))
    (take : State → State) (s : State) : onRequest code f take s = .next s :=
  whenLive_of_fixed (if_neg (frame_not_good_of_damaged h))

theorem takeVerifierReply_of_damaged {node code : Byte} {f : Frame} (h : ¬ ServiceTests (f.telegram node 0x01 code))
    (s : State) : takeVerifierReply node code f s = s :=
  if_neg fun hgood => frame_not_good_of_damaged h hgood.1

/-- Settles O7: the tests are those of `parseService`, and each row that delivers one reads it through them. -/
theorem damagedServiceTelegramsAreDiscarded : Obligations.DamagedServiceTelegramsAreDiscarded := by
  refine ⟨parseService_isSome_iff, fun _ => parseService_of_tests, fun s c bytes _ hbytes hdamaged => ?discarded⟩
  case discarded =>
    cases c <;> cases hbytes
    case masterNodeRequest | tagWrite => exact whenLive_of_fixed (takeServiceU_of_damaged hdamaged s)
    case nodeReplyForward => exact whenLive_of_fixed (takeServiceD_of_damaged hdamaged s)
    case ident | answer | noTag => exact whenLive_of_fixed (takeVerifierReply_of_damaged hdamaged s)
    case unknownRequest code f =>
      exact (onRequest_of_damaged hdamaged _ s : execUnknownRequest code f s = .next s)
    case lineReset | readEntries | writeEntries | hold | releaseHold | discardStaged | noticeDrain | attentionRead |
        attentionMask | positionRelease | positionRechallenge | revokeInsert | revokeRemove | revokeClear | keyProgram |
        keyErase | keyProtect =>
      exact onRequest_of_damaged hdamaged _ s

/-! ### The routes of port U (R145 to R147) -/

theorem isReplyCode_iff (code : Byte) : isReplyCode code = true ↔ 0x80 ≤ code := by
  rw [isReplyCode, BitVec.msb_eq_decide, decide_eq_true_iff, BitVec.le_def]
  rfl

theorem isReplyCode_eq_false_iff (code : Byte) : isReplyCode code = false ↔ code < 0x80 := by
  rw [← Bool.not_eq_true, isReplyCode_iff, BitVec.not_le]

theorem emitU_sendsUp (bytes : Bytes) (opensGap : Bool) (s : State) :
    SendsUp s (emitU bytes opensGap s) { bytes, opensGap } :=
  ⟨portU_emitU bytes opensGap s, emitU_frame bytes opensGap s⟩

/-- An undamaged telegram on port U is routed by its fields. -/
theorem exec_masterNodeRequest {s : State} {node origin tag code : Byte} {body : Bytes} (hlive : s.live = true)
    (htests : ServiceTests (0x03 :: body)) (hhead : body.take 4 = [node, origin, tag, code]) :
    exec (.masterNodeRequest body) s = .next (routeU (0x03 :: body)
      { node, origin, tag, code, payload := (body.drop 5).take (body.length - 7) } s) := by
  have hread : takeServiceU (kindService :: body) s = routeU (0x03 :: body)
      { node, origin, tag, code, payload := (body.drop 5).take (body.length - 7) } s := by
    rw [takeServiceU, parseService_body htests hhead]
    rfl
  exact (whenLive_of_live hlive _).trans (congrArg _ hread)

/-- Tests 1 and 2 of R145. -/
theorem routeU_discards {t : Service} (h : 0x80 ≤ t.code ∨ t.origin = 0x01) (bytes : Bytes) (s : State) :
    routeU bytes t s = s := by
  rw [routeU]
  split
  · rfl
  · next hrequest => exact if_pos (h.resolve_left (mt (isReplyCode_iff _).2 hrequest))

/-- Tests 3 to 5 of R145, which a request of the master reaches. -/
theorem routeU_request {t : Service} (hcode : t.code < 0x80) (horigin : t.origin = 0x00) (bytes : Bytes) (s : State) :
    routeU bytes t s =
      if t.node = 0 then takeRequest t.code t.tag t.payload s
      else if t.code = 0x03 then answerForNode t.node t.tag 0xA0 s
      else queueForNode bytes t s := by
  have hmaster : ¬ t.origin = originVerifier := by rw [horigin]; decide
  rw [routeU, (isReplyCode_eq_false_iff _).2 hcode, if_neg (by decide), if_neg hmaster]
  rfl

/-- Settles O25: the five tests of R145 in their order, then the room in the master service queue (R147). -/
theorem masterRequestsAreRouted : Obligations.MasterRequestsAreRouted := by
  intro s node origin tag code body hlive htests hhead
  rw [exec_masterNodeRequest hlive htests hhead]
  refine ⟨fun hdiscard => ?discarded, fun hcode horigin hnode => ?managed, fun hcode horigin hnode => ?blocked,
    fun hcode horigin hnode hother hroom => ?queued, fun hcode horigin hnode hother hfull => ?busy⟩
  case discarded => rw [routeU_discards hdiscard]
  case managed => rw [routeU_request hcode horigin, if_pos hnode]
  case blocked =>
    have hrequest : code < 0x80 := hcode ▸ by decide
    rw [routeU_request hrequest horigin, if_neg hnode, if_pos hcode]
    exact ⟨_, rfl, emitU_sendsUp _ _ s⟩
  case queued =>
    rw [routeU_request hcode horigin, if_neg hnode, if_neg hother]
    exact congrArg _ (if_pos hroom)
  case busy =>
    rw [routeU_request hcode horigin, if_neg hnode, if_neg hother]
    exact ⟨_, congrArg _ (if_neg hfull.not_gt), emitU_sendsUp _ _ s⟩

/-- TAG-WRITE names no management request (R154). -/
theorem takeRequest_tagWrite (tag : Byte) (payload : Bytes) (s : State) :
    takeRequest 0x03 tag payload s = refuse tag .unknown s := rfl

/-- A TAG_WRITE is the service telegram of its row on port U. -/
theorem exec_tagWrite (node : Byte) (f : Frame) (s : State) :
    exec (.tagWrite node f) s = exec (.masterNodeRequest ((f.telegram node 0x00 0x03).drop 1)) s := rfl

/-- Settles O26: the routes of port U at code 0x03. -/
theorem tagWriteIsBlocked : Obligations.TagWriteIsBlocked := by
  intro s node f hlive htests
  obtain ⟨-, hmanaged, hblocked, -, -⟩ :=
    masterRequestsAreRouted s node 0x00 f.tag 0x03 ((f.telegram node 0x00 0x03).drop 1) hlive htests rfl
  rw [exec_tagWrite]
  refine ⟨hblocked rfl rfl, fun hnode => ?_⟩
  rw [hmanaged (by decide) rfl hnode, takeRequest_tagWrite]
  exact ⟨_, rfl, refuse_refuses s f.tag .unknown⟩

/-! ### The routes of port D (R148) -/

/-- An undamaged telegram on port D is routed by its fields. -/
theorem exec_nodeReplyForward {s : State} {node origin tag code : Byte} {body : Bytes} (hlive : s.live = true)
    (htests : ServiceTests (0x03 :: body)) (hhead : body.take 4 = [node, origin, tag, code]) :
    exec (.nodeReplyForward body) s = .next (routeD (0x03 :: body)
      { node, origin, tag, code, payload := (body.drop 5).take (body.length - 7) } s) := by
  have hread : takeServiceD (kindService :: body) s = routeD (0x03 :: body)
      { node, origin, tag, code, payload := (body.drop 5).take (body.length - 7) } s := by
    rw [takeServiceD, parseService_body htests hhead]
    rfl
  exact (whenLive_of_live hlive _).trans (congrArg _ hread)

/-- Tests 1 and 2 of R148. -/
theorem routeD_discards {t : Service} (h : t.code < 0x80 ∨ t.node = 0) (bytes : Bytes) (s : State) :
    routeD bytes t s = s := by
  rw [routeD]
  split
  · rfl
  · next hreply => exact if_pos (h.resolve_left (mt (isReplyCode_eq_false_iff _).2 hreply))

/-- Tests 3 and 4 of R148, which a reply of a node reaches. -/
theorem routeD_reply {t : Service} (hcode : 0x80 ≤ t.code) (hnode : t.node ≠ 0) (bytes : Bytes) (s : State) :
    routeD bytes t s =
      if t.origin = 0x00 then emitU bytes false s
      else takeReply { node := t.node, tag := t.tag, code := t.code, payload := t.payload } s := by
  rw [routeD, (isReplyCode_iff _).2 hcode, if_neg (by decide), if_neg hnode]
  rfl

/-- Settles O27: the four tests of R148 in their order. -/
theorem nodeRepliesAreRouted : Obligations.NodeRepliesAreRouted := by
  intro s node origin tag code body hlive htests hhead
  rw [exec_nodeReplyForward hlive htests hhead]
  refine ⟨fun hdiscard => ?discarded, fun hcode hnode horigin => ?forwarded, fun hcode hnode horigin => ?handed⟩
  case discarded => rw [routeD_discards hdiscard]
  case forwarded =>
    rw [routeD_reply hcode hnode, if_pos horigin]
    exact ⟨_, rfl, emitU_sendsUp _ _ s⟩
  case handed =>
    have hverifier : ¬ origin = 0x00 := by rw [horigin]; decide
    rw [routeD_reply hcode hnode, if_neg hverifier]

/-! ### The tests of a cycle telegram (R133, R134) -/

/-- A field of one byte reads that byte, and 0 past the end. -/
theorem fieldNat_one (off : Nat) (bs : Bytes) : fieldNat off 1 bs = (bs.getD off 0).toNat := by
  rw [fieldNat, field]
  cases hrest : bs.drop off with
  | nil => rw [List.getD_eq_default _ _ (List.drop_eq_nil_iff.1 hrest)]; rfl
  | cons b rest =>
    have hbyte : bs.getD off 0 = b := by rw [List.getD_eq_getElem?_getD, ← List.head?_drop, hrest]; rfl
    rw [hbyte, List.take_succ_cons, List.take_zero, beNat, List.foldl_cons, List.foldl_nil, Nat.zero_mul, Nat.zero_add]

theorem cycleHeader_slotCount (body : Bytes) : (cycleHeader body).slotCount = (body.getD 2 0).toNat := fieldNat_one 2 body

theorem cycleHeader_slotSize (body : Bytes) : (cycleHeader body).slotSize = (body.getD 3 0).toNat := fieldNat_one 3 body

theorem framing_of_slotSize {slotSize : Byte} {g : Framing} (h : framingOf slotSize.toNat = some g) :
    (slotSize = 4 ∧ g = .short) ∨ (slotSize = 8 ∧ g = .long) := by
  unfold framingOf at h
  split_ifs at h with h4 h8
  · exact .inl ⟨BitVec.eq_of_toNat_eq h4, (Option.some.inj h).symm⟩
  · exact .inr ⟨BitVec.eq_of_toNat_eq h8, (Option.some.inj h).symm⟩

/-- A telegram for which FWD finds a framing has passed every test. -/
theorem cycleTests_of_cycleFraming {framing g : Framing} {body : Bytes} (h : cycleFraming framing body = some g) :
    CycleTests framing body := by
  simp only [cycleFraming, cycleHeader_slotCount, cycleHeader_slotSize] at h
  split at h
  · next hpass =>
    obtain ⟨hcheck, hlength, hmin, hmax⟩ := hpass
    simp only [lengthAgrees, CycleHeader.telegramLength, cycleHeader_slotCount, cycleHeader_slotSize, Bool.and_eq_true,
      decide_eq_true_eq, beq_iff_eq] at hlength
    refine ⟨beq_iff_eq.1 hcheck, hlength.1, hlength.2, ⟨hmin, hmax⟩, ?_⟩
    split at h
    · next size hsize =>
      have hkept : framing = .notSet ∨ framing = size := by
        by_contra hother
        rw [if_neg hother] at h
        cases h
      obtain ⟨h4, rfl⟩ | ⟨h8, rfl⟩ := framing_of_slotSize hsize
      · exact .inl ⟨by obtain rfl | rfl := hkept <;> decide, h4⟩
      · exact .inr ⟨by obtain rfl | rfl := hkept <;> decide, h8⟩
    · cases h
  · cases h

/-- Settles O9: FWD finds no framing for a telegram that fails a test. -/
theorem badCycleTelegramOnlyLatchesFraming : Obligations.BadCycleTelegramOnlyLatchesFraming := by
  intro s body portFree hlive hbad
  have hnone : cycleFraming s.fwd.framing body = none :=
    Option.eq_none_iff_forall_ne_some.2 fun _ hsome => hbad (cycleTests_of_cycleFraming hsome)
  have htake : takeCycle body portFree s = latchFraming s := by rw [takeCycle, hnone]
  exact (whenLive_of_live hlive _).trans (congrArg _ htake)

end Sys2Proof.Machine
end

section
/-! PROOFS. The management requests (09): entries as numbers written one behind another, a notice as such an entry,
NOTICE-DRAIN, and its obligation. -/

namespace Sys2Proof.Machine

/-! ### Numbers written one behind another (R153) -/

/-- Numbers as big-endian bytes, each with its width, one behind another. -/
def written (numbers : List (Nat × Nat)) : Bytes := numbers.flatMap fun x => be x.1 x.2

/-- The places at which such numbers stand from an offset on. -/
def placedFrom : Nat → List (Nat × Nat) → List (Nat × Nat × Nat)
  | _, [] => []
  | off, (width, value) :: rest => (off, width, value) :: placedFrom (off + width) rest

/-- Numbers that fit their widths are shown where they are written. -/
theorem shows_written {numbers : List (Nat × Nat)} (h : ∀ x ∈ numbers, x.2 < 256 ^ x.1) (before : Bytes) :
    Shows (before ++ written numbers) (placedFrom before.length numbers) := by
  induction numbers generalizing before with
  | nil => exact List.forall_mem_nil _
  | cons x rest ih =>
    obtain ⟨width, value⟩ := x
    obtain ⟨hvalue, hrest⟩ := List.forall_mem_cons.1 h
    have hhere : fieldNat before.length width (before ++ written ((width, value) :: rest)) = value := by
      rw [fieldNat_skip _ _ _ _ le_rfl, Nat.sub_self]
      exact fieldNat_be width value _ hvalue
    have hbehind := ih hrest (before ++ be width value)
    rw [List.append_assoc, List.length_append, be_length] at hbehind
    exact List.forall_mem_cons.2 ⟨hhere, hbehind⟩

/-! ### A notice (R52) -/

theorem verdictNumber_eq_code (v : Verdict) : verdictNumber v = v.code := by cases v <;> rfl

theorem reasonNumber_eq_code (x : Reason) : reasonNumber x = x.code := by cases x <;> rfl

theorem verdictNumber_lt (v : Verdict) : verdictNumber v < 16 := by cases v <;> decide

theorem reasonNumber_lt (x : Reason) : reasonNumber x < 256 := by cases x <;> decide

theorem beSigned_eq (v : Int) : beSigned v = be 2 (twosComplement v) := by
  rw [beSigned, BitVec.toNat_ofInt]
  rfl

theorem twosComplement_lt (v : Int) : twosComplement v < 65536 := by
  unfold twosComplement
  omega

/-- The numbers of a notice in the order of its layout, each with its width (08, Layouts and code values). -/
def noticeNumbers (n : Notice) : List (Nat × Nat) :=
  [(1, n.position.val + 1), (1, 16 * verdictNumber n.before + verdictNumber n.after), (1, reasonNumber n.reason), (1, 0),
    (2, n.cls.toNat), (6, n.serial.toNat), (2, twosComplement n.score), (2, n.cycle.toNat)]

theorem encodeNotice_eq_written (n : Notice) : encodeNotice n = written (noticeNumbers n) := by
  have hposition : [posByte n.position] = be 1 (n.position.val + 1) := by simp [be, posByte]
  simp only [encodeNotice, hposition, written, noticeNumbers, verdictNumber_eq_code, reasonNumber_eq_code, beSigned_eq,
    Nat.mul_comm 16, List.flatMap_cons, List.flatMap_nil, List.append_assoc, List.append_nil]

theorem noticeNumbers_fit (n : Notice) : ∀ x ∈ noticeNumbers n, x.2 < 256 ^ x.1 := by
  have hposition := n.position.isLt
  have hbefore := verdictNumber_lt n.before
  have hafter := verdictNumber_lt n.after
  simp only [noticeNumbers, List.forall_mem_cons]
  exact ⟨by omega, by omega, reasonNumber_lt _, by decide, n.cls.isLt, n.serial.isLt, twosComplement_lt _, n.cycle.isLt,
    List.forall_mem_nil _⟩

theorem encodeNotice_shows (n : Notice) : ShowsNotice (encodeNotice n) n := by
  rw [encodeNotice_eq_written]
  exact shows_written (noticeNumbers_fit n) []

/-- A notice that finds the queue empty is the one notice in it and latches NOTICE (R171). -/
theorem addNotice_of_empty {s : State} (h : s.mgt.notices = []) (n : Notice) :
    addNotice n s =
      { s with mgt := { s.mgt with notices := [n], attention := { s.mgt.attention with notice := true } } } := by
  simp [addNotice, h, Config.noticeCapacity, latchNotice]

/-! ### NOTICE-DRAIN (R172) -/

/-- A telegram made ready for port U leaves MGT alone. -/
theorem SendsUp.mgt_eq {u t : State} {x : Upstream} (h : SendsUp u t x) : t.mgt = u.mgt := by rw [h.frame]

theorem oneByte_of_length {payload : Bytes} (h : payload.length ≠ 1) : oneByte payload = none := by
  match payload, h with
  | [], _ => rfl
  | [_], h => exact absurd rfl h
  | _ :: _ :: _, _ => rfl

theorem takeDrain_unfit {payload : Bytes} (h : payload.length ≠ 1) (tag : Byte) (s : State) :
    takeDrain tag payload s = refuse tag .range s := by
  rw [takeDrain, oneByte_of_length h]

/-- The drain takes no more notices than wait, since past the end of the queue there is nothing to take. -/
theorem takeDrain_maximum {s : State} {m : Byte} {n : Nat} (h : n = min (min m.toNat 15) s.mgt.notices.length) (tag : Byte) :
    takeDrain tag [m] s =
      replyOk tag ((s.mgt.notices.take n).flatMap encodeNotice)
        { s with mgt := { s.mgt with notices := s.mgt.notices.drop n } } := by
  have hcount : min (min m.toNat Config.drainLimit) s.mgt.notices.length = min n s.mgt.notices.length := by
    rw [h, min_assoc _ s.mgt.notices.length, min_self]
    rfl
  rw [← List.take_eq_take_iff.2 hcount, ← List.drop_eq_drop_iff.2 hcount]
  rfl

theorem exec_noticeDrain {s : State} {f : Frame} (h : Arrives s f 0x48) :
    exec (.noticeDrain f) s = .next (takeDrain f.tag f.payload s) :=
  onRequest_of_arrives h _

/-- Settles O47: the answer is that of `takeDrain`, and after a drain of every notice the next one finds the queue empty. -/
theorem noticeDrainReturnsTheOldest : Obligations.NoticeDrainReturnsTheOldest := by
  refine ⟨fun s f m n hasks hn => ?drained, fun s f harrives hlength => ?unfit⟩
  case drained =>
    have hanswers := replyOk_answers { s with mgt := { s.mgt with notices := s.mgt.notices.drop n } } f.tag
      ((s.mgt.notices.take n).flatMap encodeNotice)
    refine ⟨_, exec_noticeDrain hasks.toArrives, ?_⟩
    rw [hasks.payload, takeDrain_maximum hn]
    refine ⟨hanswers, fun x _ => ⟨encodeNotice_length x, encodeNotice_shows x⟩, fun hall x => ?_⟩
    have hmgt := SendsUp.mgt_eq hanswers
    rw [addNotice_of_empty (by rw [hmgt, hall, List.drop_length]), hmgt]
  case unfit =>
    refine ⟨_, exec_noticeDrain harrives, ?_⟩
    rw [takeDrain_unfit hlength]
    exact refuse_refuses s f.tag .range

end Sys2Proof.Machine
end

section
/-! PROOFS. What one step is made of: every command is a chain of operations of the blocks, listed once, so that what every
step keeps is proved operation by operation. -/

namespace Sys2Proof.Machine

/-! ### The operations -/

/-- An update of what no invariant of the steps speaks of: the command queue, the supply and the clock, the gated map, FWD but
for the bound of its queue, and MGT's flags, hold and reset cause; the notice queue grows no longer. -/
structure Quiet (s t : State) : Prop where
  frame : t = { s with
    pending := t.pending, freeIndex := t.freeIndex, supply := t.supply, resetAsserted := t.resetAsserted, now := t.now,
    gatedMap := t.gatedMap, fwd := t.fwd,
    mgt := { s.mgt with hold := t.mgt.hold, notices := t.mgt.notices, attention := t.mgt.attention, mask := t.mgt.mask,
                        resetCause := t.mgt.resetCause } }
  notices : t.mgt.notices.length ≤ s.mgt.notices.length
  master : s.fwd.masterQueue.length ≤ 4 → t.fwd.masterQueue.length ≤ 4

/-- The operations of the blocks that commands are made of, each with what its callers have tested. -/
inductive Op (s : State) : State → Prop where
  | quiet {t : State} (h : Quiet s t) : Op s t
  | abort : Op s (abortOperation s)
  | reset (kind : ResetKind) : Op s (resetTo kind s)
  | count : Op s (countStart s)
  | pass : Op s (passage s)
  | sweepAge (p : Pos) : Op s (advanceSweep p s)
  | decay (p : Pos) : Op s (advanceDecay p s)
  | input (p : Pos) (i : Input) (h : s.device = .running) : Op s (handleInput p i s)
  | settle (p : Pos) (counter : BitVec 16) (h : s.device = .running) (hp : s.run[p].phase = .settling) :
      Op s (completeSettling p counter s)
  | lose (p : Pos) (h : s.device = .running) (hp : s.run[p].phase.countsLoss = true) : Op s (losePart p s)
  | apply : Op s (applyEdits s)
  | stage (items : List EditItem) (h : editsFit s.mgt.edits items = true) : Op s (stage items s)
  | discard : Op s { s with mgt := { s.mgt with edits := [] } }
  | fill (c : Choice) (h : s.device = .running) (hc : choose s = some c) : Op s (fill c s)
  | identify (i : RecNo) (rec : Record) (id : Identity) (h : s.sch.records[i] = some rec) (hq : rec.query = .ident) :
      Op s (identify rec.position id (setRecord i none s))
  | verify (i : RecNo) (rec : Record) (nonce : Nonce) (slot : SlotNo) (odo response : Word32)
      (h : s.sch.records[i] = some rec) (hq : rec.query = .challenge nonce slot) :
      Op s (verify i rec nonce slot odo response s)
  | expire (i : RecNo) (rec : Record) (h : s.sch.records[i] = some rec) : Op s (expire i rec s)
  | await (i : RecNo) (rec : Record) (state : RecordState) (h : s.sch.records[i] = some rec) :
      Op s (setRecord i (some { rec with state }) s)
  | setup (p : Setup) (h : s.mgt.setupLock = false) :
      Op s (recountPositions p.positionCount { s with mgt := { s.mgt with setup := p, setupLock := true } })
  | release (p : Pos) : Op s (modRun p (fun r => { r with released := true }) s)
  | reidentify (p : Pos) (hp : s.run[p].phase = .held) (hi : s.run[p].identity = none) :
      Op s (ask p .ident none (modRun p (fun r => { r with phase := .identifying, sweepAge := 0 }) s))
  | call (p : Pos) (round : RoundKind) (hp : s.run[p].phase = .held) : Op s (callDue p round s)
  | revocations (l : List Revocation) (h : l.Sublist s.revocations) : Op s { s with revocations := l }
  | insert (e : Revocation) (h : e ∉ s.revocations) (hl : s.revocations.length < 512) :
      Op s { s with revocations := insertRevocation e s.revocations }
  | revoke (p : Pos) (e : Revocation) (h : revocationHits e s.run[p] = true) : Op s (revokePosition p s)
  | start (op : KeyOp) (h : OperationGuarded { s.kst with op }) : Op s { s with kst := { s.kst with op } }
  | eraseRecord (page : Fin 4) (i : RecNo) : Op s (eraseRecord page i s)
  | programmed (slot : SlotNo) (key : Key) (due : Nat) (x : KeySlot) (result : KeyResult)
      (h : s.kst.op = .programming slot key due) :
      Op s { s with kst := { s.kst with slots := s.kst.slots.set slot.val x slot.isLt, lastResult := result, op := .idle } }
  | erased (page : Fin 4) (due : Nat) (f : Fin 4 → KeySlot) (result : KeyResult) (h : s.kst.op = .erasing page due) :
      Op s { s with kst := { s.kst with slots := setPage page f s.kst.slots, lastResult := result, op := .idle } }
  | lowered (boundary due : Nat) (result : KeyResult) (h : s.kst.op = .protecting boundary due) :
      Op s { s with kst := { s.kst with boundary, lastResult := result, op := .idle } }
  | epoch (e : Word32) (h : ∃ due, s.kst.op = .epochUpdate due) : Op s { s with kst := { s.kst with epoch := e, op := .idle } }
  | startPending : Op s (startPendingEpoch s)
  | serveKey (p : Pos) (hp : s.run[p].phase = .held) : Op s (serveKeyMissing p s)

/-- A chain of operations. -/
abbrev Ops : State → State → Prop := Relation.ReflTransGen Op

theorem Op.ops {s t : State} (h : Op s t) : Ops s t := .single h

theorem Quiet.ops {s t : State} (h : Quiet s t) : Ops s t := .single (.quiet h)

theorem ops_if {c : Prop} [Decidable c] {s t u : State} (ht : c → Ops s t) (hu : ¬ c → Ops s u) :
    Ops s (if c then t else u) := by
  split
  · next h => exact ht h
  · next h => exact hu h

/-- Operations one after another, each of which keeps what the next one asks for. -/
theorem ops_foldl {α : Type} {keeps : State → Prop} {f : α → State → State}
    (hf : ∀ a s, keeps s → Ops s (f a s) ∧ keeps (f a s)) (l : List α) {s : State} (hs : keeps s) :
    Ops s (l.foldl (fun t a => f a t) s) := by
  induction l generalizing s with
  | nil => exact .refl
  | cons a l ih => exact (hf a s hs).1.trans (ih (hf a s hs).2)

theorem ops_foldl_any {α : Type} {f : α → State → State} (hf : ∀ a s, Ops s (f a s)) (l : List α) (s : State) :
    Ops s (l.foldl (fun t a => f a t) s) :=
  ops_foldl (keeps := fun _ => True) (fun a s _ => ⟨hf a s, trivial⟩) l trivial

theorem ops_serveAll {f : Pos → State → State} (hf : ∀ p s, Ops s (f p s)) (s : State) : Ops s (serveAll f s) :=
  ops_foldl_any hf _ s

/-! ### Quiet updates -/

/-- An update of FWD that does not fill the master service queue. -/
theorem quiet_fwd (s : State) (f : Fwd) (h : f.masterQueue.length ≤ s.fwd.masterQueue.length) : Quiet s { s with fwd := f } :=
  ⟨rfl, le_rfl, fun hs => h.trans hs⟩

theorem quiet_freeIndex (n : Nat) (s : State) : Quiet s { s with freeIndex := n } := ⟨rfl, le_rfl, id⟩

theorem quiet_emitU (bytes : Bytes) (opensGap : Bool) (s : State) : Quiet s (emitU bytes opensGap s) := by
  rw [emitU_frame]
  exact quiet_fwd s _ le_rfl

theorem quiet_reply (tag code : Byte) (payload : Bytes) (s : State) : Quiet s (reply tag code payload s) := quiet_emitU _ _ s
theorem quiet_replyOk (tag : Byte) (payload : Bytes) (s : State) : Quiet s (replyOk tag payload s) := quiet_emitU _ _ s
theorem quiet_refuse (tag : Byte) (cause : Cause) (s : State) : Quiet s (refuse tag cause s) := quiet_emitU _ _ s

theorem quiet_tick (s : State) : Quiet s (tick s) := by
  unfold tick
  split
  · exact ⟨rfl, le_rfl, id⟩
  · exact ⟨rfl, le_rfl, id⟩

/-! ### The cycle path -/

theorem ops_handleAll {keeps : State → Prop} {f : Pos → State → State}
    (hf : ∀ p s, keeps s → Ops s (f p s) ∧ keeps (f p s)) {s : State} (hs : keeps s) : Ops s (handleAll f s) :=
  (ops_foldl hf (positionsBy (Config.handlingRank s.freeIndex)) hs).tail (.quiet (quiet_freeIndex (s.freeIndex + 1) _))

theorem ops_advancePosition (p : Pos) (s : State) : Ops s (advancePosition p s) :=
  (Op.sweepAge p).ops.tail (.decay p)

theorem ops_advanceAll (s : State) : Ops s (advanceAll s) := by
  unfold advanceAll
  split
  · exact .refl
  · exact ops_handleAll (keeps := fun _ => True) (fun p s _ => ⟨ops_advancePosition p s, trivial⟩) trivial

theorem ops_applyEvent (s : State) : Ops s (applyEvent s) := by
  unfold applyEvent
  split
  · exact Op.apply.ops
  · exact .refl

theorem ops_applyIfStill (s : State) : Ops s (applyIfStill s) := by
  unfold applyIfStill
  split
  · exact ops_applyEvent s
  · exact .refl

theorem ops_applyAndAdvance (first : Bool) (s : State) : Ops s (applyAndAdvance first s) := by
  unfold applyAndAdvance
  split
  · exact (ops_applyEvent s).trans (ops_advanceAll _)
  · exact (ops_advanceAll s).trans (ops_applyEvent _)

theorem ops_boundaryWork (s : State) : Ops s (boundaryWork s) := by
  unfold boundaryWork
  split
  · exact ((quiet_freeIndex (s.freeIndex + 1) s).ops.trans (ops_applyAndAdvance _ _)).tail .count
  · exact (ops_advanceAll s).tail .count

theorem quiet_gateAndSend (body : Bytes) (free : Bool) (s : State) : Quiet s (gateAndSend body free s) := by
  unfold gateAndSend readyCycle
  split
  · exact ⟨rfl, le_rfl, id⟩
  · exact ⟨rfl, le_rfl, id⟩

theorem quiet_openBoundary (g : Framing) (s : State) : Quiet s (openBoundary g s) := ⟨rfl, le_rfl, id⟩

theorem ops_takeCycle (body : Bytes) (free : Bool) (s : State) : Ops s (takeCycle body free s) := by
  unfold takeCycle
  split
  · exact Quiet.ops ⟨rfl, le_rfl, id⟩
  · exact ((quiet_openBoundary _ s).ops.trans (ops_boundaryWork _)).tail (.quiet (quiet_gateAndSend _ _ _))

theorem ops_takeInputs (body : Bytes) (s : State) : Ops s (takeInputs body s) := by
  unfold takeInputs
  split
  · exact .refl
  · next h =>
    exact ops_handleAll (keeps := fun s => s.device = .running)
      (fun p s hs => ⟨(Op.input p _ hs).ops, (handleInput_work p _ s).device.trans hs⟩) h

theorem quiet_forwardReturn (damaged opensGap : Bool) (body : Bytes) (s : State) :
    Quiet s (forwardReturn damaged opensGap body s) := quiet_emitU _ _ s

theorem ops_takeReturn (body : Bytes) (s : State) : Ops s (takeReturn body s) := by
  have unexpected : Ops s { s with fwd := { s.fwd with expectation := none } } := Quiet.ops ⟨rfl, le_rfl, id⟩
  unfold takeReturn
  split
  · exact (quiet_forwardReturn _ _ _ _).ops
  · split
    · exact (unexpected.trans (ops_takeInputs _ _)).tail (.quiet (quiet_forwardReturn _ _ _ _))
    · split
      · exact unexpected.tail (.quiet (quiet_forwardReturn _ _ _ _))
      · exact (quiet_forwardReturn _ _ _ _).ops

theorem ops_becomeStill (s : State) : Ops s (becomeStill s) := by
  unfold becomeStill
  split
  · exact (quiet_fwd s { s.fwd with lineState := .still, gap := none, expectation := none } le_rfl).ops.trans
      (ops_applyEvent _)
  · exact .refl

theorem quiet_sendWaiting (s : State) : Quiet s (sendWaiting s) := by
  unfold sendWaiting
  split
  · exact quiet_fwd s _ le_rfl
  · exact quiet_fwd s _ le_rfl

/-! ### The ports -/

theorem ops_serveMaster (s : State) : Ops s (serveMaster s) := by
  unfold serveMaster
  split
  · exact .refl
  · next h => exact (quiet_fwd s _ (by simp [h])).ops

/-- SCH's choice does not look at FWD. -/
theorem choose_fwd (s : State) (f : Fwd) : choose { s with fwd := f } = choose s := rfl

/-- A side is served only where it has work. -/
theorem sideServed_works {preferred side : Side} {s : State} (h : sideServed preferred s = some side) :
    (side = .master ∧ masterHasWork s = true) ∨ (side = .verifier ∧ schHasWork s = true) := by
  cases preferred <;> simp only [sideServed] at h <;> split at h
  all_goals first
    | (cases h; simp_all)
    | (split at h <;> cases h; simp_all)

theorem schHasWork_iff (s : State) : schHasWork s = true ↔ s.device = .running ∧ ∃ c, choose s = some c := by
  simp [schHasWork, Option.isSome_iff_exists]

/-- A side that has work is served, with FWD as the opportunity or turn leaves it. -/
theorem ops_serve {side : Side} {s : State} {f : Fwd} (hf : f.masterQueue.length ≤ s.fwd.masterQueue.length)
    (h : side = .verifier → schHasWork s = true) : Ops s (serve side { s with fwd := f }) := by
  cases side with
  | master => exact (quiet_fwd s f hf).ops.trans (ops_serveMaster _)
  | verifier =>
    obtain ⟨hd, c, hc⟩ := (schHasWork_iff s).1 (h rfl)
    simp only [serve, serveVerifier, choose_fwd, hc]
    exact (quiet_fwd s { f with lastServed := .verifier } hf).ops.tail (.fill c hd hc)

theorem ops_takeOpportunity (s : State) : Ops s (takeOpportunity s) := by
  unfold takeOpportunity
  split
  · exact .refl
  · split
    · split
      · exact .refl
      · next side h =>
        refine ops_serve le_rfl fun hs => ?_
        simpa [hs] using sideServed_works h
    · exact .refl

theorem ops_takeTurn (s : State) : Ops s (takeTurn s) := by
  unfold takeTurn
  split
  · split
    · exact .refl
    · next side h =>
      refine ops_serve (f := s.fwd) le_rfl fun hs => ?_
      simpa [hs] using sideServed_works h
  · exact .refl

theorem quiet_endSendingU (s : State) : Quiet s (endSendingU s) := by
  unfold endSendingU
  split
  · exact quiet_fwd s s.fwd le_rfl
  · split
    · unfold openGap
      split
      · exact quiet_fwd s _ le_rfl
      · exact quiet_fwd s s.fwd le_rfl
    · exact quiet_fwd s s.fwd le_rfl

theorem quiet_nextSendingU (s : State) : Quiet s (nextSendingU s) := by
  unfold nextSendingU
  split
  · exact quiet_fwd s _ le_rfl
  · exact quiet_fwd s _ le_rfl

theorem ops_freePortU (s : State) : Ops s (freePortU s) :=
  (quiet_endSendingU s).ops.tail (.quiet (quiet_nextSendingU _))

theorem quiet_queueForNode (bytes : Bytes) (t : Service) (s : State) : Quiet s (queueForNode bytes t s) := by
  unfold queueForNode
  split
  · next h => exact ⟨rfl, le_rfl, fun _ => by simpa [Config.masterQueueCapacity] using h⟩
  · exact quiet_emitU _ _ s

/-! ### Verifier replies -/

theorem ops_takeReply (r : Reply) (s : State) : Ops s (takeReply r s) := by
  unfold takeReply
  split
  · exact .refl
  · next i _ =>
    split
    · exact .refl
    · next rec hrec =>
      split
      · unfold takeNoTag
        split
        · exact (Op.expire i rec hrec).ops
        · exact .refl
        · exact .refl
      · split
        · next hq =>
          unfold takeIdent
          split
          · exact (Op.identify i rec _ hrec hq).ops
          · exact (Op.identify i rec _ hrec hq).ops
          · exact .refl
        · next nonce slot hq =>
          have awaited (st : RecordState) : Ops s (if s.kst.busy = true then setRecord i (some { rec with state := st }) s
              else verify i rec nonce slot (answerOf r.payload).odo (answerOf r.payload).response s) := by
            split
            · exact (Op.await i rec st hrec).ops
            · exact (Op.verify i rec nonce slot _ _ hrec hq).ops
          unfold takeAnswer
          split
          · exact .refl
          · exact awaited _
          · exact awaited _

theorem ops_takeDeadline (i : RecNo) (s : State) : Ops s (takeDeadline i s) := by
  unfold takeDeadline
  split
  · exact .refl
  · next rec hrec =>
    split
    · exact (Op.expire i rec hrec).ops
    · exact .refl

theorem ops_takeVerifierReply (node code : Byte) (f : Frame) (s : State) : Ops s (takeVerifierReply node code f s) := by
  unfold takeVerifierReply
  split
  · exact ops_takeReply _ s
  · exact .refl

theorem ops_verifyWaiting (i : RecNo) (s : State) : Ops s (verifyWaiting i s) := by
  unfold verifyWaiting
  split
  · exact .refl
  · next rec hrec =>
    split
    · next hq => exact (Op.verify i rec _ _ _ _ hrec hq).ops
    · exact .refl
    · exact .refl
    · exact .refl

theorem ops_verifyAll (s : State) : Ops s (verifyAll s) := ops_foldl_any ops_verifyWaiting _ s

/-! ### Management requests -/

theorem quiet_readEffect (t : Table) (given : Nat) (s : State) : Quiet s (readEffect t given s) := by
  unfold readEffect
  split
  · exact ⟨rfl, le_rfl, id⟩
  · exact ⟨rfl, le_rfl, id⟩

theorem quiet_hold (b : Bool) (s : State) : Quiet s { s with mgt := { s.mgt with hold := b } } := ⟨rfl, le_rfl, id⟩

theorem ops_takeRead (tag : Byte) (payload : Bytes) (s : State) : Ops s (takeRead tag payload s) := by
  unfold takeRead
  split
  · exact (quiet_refuse _ _ _).ops
  · split
    · exact (quiet_refuse _ _ _).ops
    · dsimp only
      split
      · exact (quiet_refuse _ _ _).ops
      · split
        · exact (quiet_refuse _ _ _).ops
        · exact (quiet_replyOk tag _ s).ops.trans (quiet_readEffect _ _ _).ops

/-- Making an answer ready leaves the pending edit set alone. -/
theorem replyOk_edits (tag : Byte) (payload : Bytes) (s : State) : (replyOk tag payload s).mgt.edits = s.mgt.edits := by
  unfold replyOk reply emitU
  split <;> rfl

theorem replyOk_setupLock (tag : Byte) (payload : Bytes) (s : State) :
    (replyOk tag payload s).mgt.setupLock = s.mgt.setupLock := by
  unfold replyOk reply emitU
  split <;> rfl

/-- An accepted write: its answer, the staging, and the application where the line is STILL. -/
theorem ops_staged (tag : Byte) (payload : Bytes) (items : List EditItem) (s : State)
    (h : editsFit s.mgt.edits items = true) : Ops s (applyIfStill (stage items (replyOk tag payload s))) :=
  ((quiet_replyOk tag payload s).ops.tail (.stage items (by rwa [replyOk_edits]))).trans (ops_applyIfStill _)

theorem ops_takeConfigWrite (tag : Byte) (payload : Bytes) (s : State) : Ops s (takeConfigWrite tag payload s) := by
  unfold takeConfigWrite
  dsimp only
  split
  · exact (quiet_refuse _ _ _).ops
  · split
    · exact (quiet_refuse _ _ _).ops
    · split
      · exact (quiet_refuse _ _ _).ops
      · next h => exact ops_staged _ _ _ _ (by simpa using h)

theorem ops_takeClassWrite (tag : Byte) (payload : Bytes) (s : State) : Ops s (takeClassWrite tag payload s) := by
  unfold takeClassWrite
  dsimp only
  split
  · exact (quiet_refuse _ _ _).ops
  · split
    · exact (quiet_refuse _ _ _).ops
    · split
      · exact (quiet_refuse _ _ _).ops
      · split
        · exact (quiet_refuse _ _ _).ops
        · next h => exact ops_staged _ _ _ _ (by simpa using h)

theorem ops_takeSetupWrite (tag : Byte) (payload : Bytes) (s : State) : Ops s (takeSetupWrite tag payload s) := by
  unfold takeSetupWrite
  split
  · exact (quiet_refuse _ _ _).ops
  · split
    · exact (quiet_refuse _ _ _).ops
    · next hlock =>
      split
      · exact (quiet_refuse _ _ _).ops
      · next p _ =>
        exact ((quiet_replyOk tag _ s).ops.tail (.setup p (by simpa [replyOk_setupLock] using hlock))).tail .pass

theorem ops_takeWrite (tag : Byte) (payload : Bytes) (s : State) : Ops s (takeWrite tag payload s) := by
  unfold takeWrite
  split
  · exact ops_takeConfigWrite tag payload s
  · exact ops_takeClassWrite tag payload s
  · exact ops_takeSetupWrite tag payload s
  all_goals exact (quiet_refuse _ _ _).ops

theorem ops_takeReleaseHold (tag : Byte) (s : State) : Ops s (takeReleaseHold tag s) :=
  ((quiet_hold false s).ops.trans (quiet_replyOk tag [] _).ops).trans (ops_applyIfStill _)

theorem ops_takeDrain (tag : Byte) (payload : Bytes) (s : State) : Ops s (takeDrain tag payload s) := by
  unfold takeDrain
  split
  · exact (quiet_refuse _ _ _).ops
  · next m _ =>
    exact (Quiet.ops (t := { s with mgt := { s.mgt with notices := s.mgt.notices.drop (min m Config.drainLimit) } })
      ⟨rfl, by simp, id⟩).tail (.quiet (quiet_replyOk _ _ _))

theorem ops_takeAttentionMask (tag : Byte) (payload : Bytes) (s : State) : Ops s (takeAttentionMask tag payload s) := by
  unfold takeAttentionMask
  split
  · next b =>
    split
    · exact (quiet_refuse _ _ _).ops
    · exact (Quiet.ops (t := { s with mgt := { s.mgt with mask := attentionOf b } }) ⟨rfl, le_rfl, id⟩).tail
        (.quiet (quiet_replyOk _ _ _))
  · exact (quiet_refuse _ _ _).ops

theorem ops_takeRelease (tag : Byte) (payload : Bytes) (s : State) : Ops s (takeRelease tag payload s) := by
  unfold takeRelease
  split
  · exact (quiet_refuse _ _ _).ops
  · split
    · exact (quiet_refuse _ _ _).ops
    · exact (Op.release _).ops.tail (.quiet (quiet_replyOk _ _ _))

theorem ops_takeRechallenge (tag : Byte) (payload : Bytes) (s : State) : Ops s (takeRechallenge tag payload s) := by
  unfold takeRechallenge
  split
  · exact (quiet_refuse _ _ _).ops
  · next p _ =>
    dsimp only
    split
    · exact (quiet_refuse _ _ _).ops
    · next h =>
      have held : s.run[p].phase = .held := by
        simp only [not_or, not_not] at h
        exact h.1
      split
      · next hi => exact (Op.reidentify p held hi).ops.tail (.quiet (quiet_replyOk _ _ _))
      · split
        · exact (quiet_refuse _ _ _).ops
        · exact (Op.call p .manual held).ops.tail (.quiet (quiet_replyOk _ _ _))

theorem ops_revokeSeated (e : Revocation) (s : State) : Ops s (revokeSeated e s) := by
  refine ops_serveAll (fun p t => ?_) s
  split
  · next h => exact (Op.revoke p e h).ops
  · exact .refl

theorem ops_takeRevokeInsert (tag : Byte) (payload : Bytes) (s : State) : Ops s (takeRevokeInsert tag payload s) := by
  unfold takeRevokeInsert
  split
  · exact (quiet_refuse _ _ _).ops
  · split
    · exact (quiet_refuse _ _ _).ops
    · next e _ =>
      split
      · exact (quiet_refuse _ _ _).ops
      · next hnew =>
        split
        · exact (quiet_refuse _ _ _).ops
        · next hroom =>
          have inserted := Op.insert e (s := s) (by simpa using hnew) (by simpa [Config.revocationCapacity] using hroom)
          exact (inserted.ops.trans (ops_revokeSeated e _)).tail (.quiet (quiet_replyOk _ _ _))

theorem ops_takeRevokeRemove (tag : Byte) (payload : Bytes) (s : State) : Ops s (takeRevokeRemove tag payload s) := by
  unfold takeRevokeRemove
  split
  · exact (quiet_refuse _ _ _).ops
  · split
    · exact (quiet_refuse _ _ _).ops
    · split
      · exact (Op.revocations _ List.erase_sublist).ops.tail (.quiet (quiet_replyOk _ _ _))
      · exact (quiet_refuse _ _ _).ops

theorem ops_takeKeyProgram (tag : Byte) (payload : Bytes) (s : State) : Ops s (takeKeyProgram tag payload s) := by
  unfold takeKeyProgram
  split
  · exact (quiet_refuse _ _ _).ops
  · split
    · dsimp only
      split
      · exact (quiet_refuse _ _ _).ops
      · next hprot =>
        split
        · exact (quiet_refuse _ _ _).ops
        · split
          · exact (quiet_refuse _ _ _).ops
          · refine (Op.start _ ?_).ops.tail (.quiet (quiet_reply _ _ _ _))
            simpa [OperationGuarded, KeyStore.isProtected] using hprot
    · exact (quiet_refuse _ _ _).ops

theorem ops_eraseAbandon (page : Fin 4) (s : State) : Ops s (eraseAbandon page s) :=
  ops_foldl_any (fun i _ => (Op.eraseRecord page i).ops) _ s

theorem ops_takeKeyErase (tag : Byte) (payload : Bytes) (s : State) : Ops s (takeKeyErase tag payload s) := by
  unfold takeKeyErase
  split
  · exact (quiet_refuse _ _ _).ops
  · split
    · dsimp only
      split
      · exact (quiet_refuse _ _ _).ops
      · next hprot =>
        split
        · exact (quiet_refuse _ _ _).ops
        · refine ((Op.start _ ?_).ops.trans (ops_eraseAbandon _ _)).tail (.quiet (quiet_reply _ _ _ _))
          exact not_le.1 fun hle => hprot (decide_eq_true hle)
    · exact (quiet_refuse _ _ _).ops

theorem ops_takeKeyProtect (tag : Byte) (payload : Bytes) (s : State) : Ops s (takeKeyProtect tag payload s) := by
  unfold takeKeyProtect
  split
  · exact (quiet_refuse _ _ _).ops
  · split
    · exact (quiet_refuse _ _ _).ops
    · split
      · exact (quiet_refuse _ _ _).ops
      · next hlow =>
        split
        · exact (quiet_refuse _ _ _).ops
        · refine (Op.start _ ?_).ops.tail (.quiet (quiet_reply _ _ _ _))
          simpa [OperationGuarded] using hlow

theorem ops_takeLineReset (tag : Byte) (s : State) : Ops s (takeLineReset tag s) :=
  (quiet_fwd s { s.fwd with uSending := some { bytes := replyTelegram tag codeOk [], opensGap := false }, uReady := [] }
    le_rfl).ops.tail (.reset .line)

theorem ops_takeHold (tag : Byte) (s : State) : Ops s (takeHold tag s) :=
  (quiet_hold true s).ops.trans (quiet_replyOk tag [] _).ops

theorem ops_takeDiscard (tag : Byte) (s : State) : Ops s (takeDiscard tag s) :=
  Op.discard.ops.tail (.quiet (quiet_replyOk _ _ _))

theorem ops_takeAttentionRead (tag : Byte) (s : State) : Ops s (takeAttentionRead tag s) :=
  (Quiet.ops (t := { s with mgt := { s.mgt with attention := Attention.clear } }) ⟨rfl, le_rfl, id⟩).tail
    (.quiet (quiet_replyOk _ _ _))

theorem ops_takeRevokeClear (tag : Byte) (s : State) : Ops s (takeRevokeClear tag s) :=
  (Op.revocations [] (List.nil_sublist _)).ops.tail (.quiet (quiet_replyOk _ _ _))

/-- A request that MGT takes, whatever its code. -/
theorem ops_takeRequest (code tag : Byte) (payload : Bytes) (s : State) : Ops s (takeRequest code tag payload s) := by
  have taken (c : Byte) {f g : State} (hf : Ops s f) (hg : Ops s g) : Ops s (if code = c then f else g) := by
    split
    · exact hf
    · exact hg
  refine taken _ (ops_takeRead tag payload s) ?_
  refine taken _ (ops_takeWrite tag payload s) ?_
  refine taken _ (ops_takeHold tag s) ?_
  refine taken _ (ops_takeReleaseHold tag s) ?_
  refine taken _ (ops_takeDiscard tag s) ?_
  refine taken _ (ops_takeDrain tag payload s) ?_
  refine taken _ (ops_takeAttentionRead tag s) ?_
  refine taken _ (ops_takeAttentionMask tag payload s) ?_
  refine taken _ (ops_takeRelease tag payload s) ?_
  refine taken _ (ops_takeRechallenge tag payload s) ?_
  refine taken _ (ops_takeRevokeInsert tag payload s) ?_
  refine taken _ (ops_takeRevokeRemove tag payload s) ?_
  refine taken _ (ops_takeRevokeClear tag s) ?_
  refine taken _ (ops_takeKeyProgram tag payload s) ?_
  refine taken _ (ops_takeKeyErase tag payload s) ?_
  refine taken _ (ops_takeKeyProtect tag payload s) ?_
  exact taken _ (ops_takeLineReset tag s) (quiet_refuse _ _ _).ops

/-! ### Routes -/

theorem ops_takeServiceU (bytes : Bytes) (s : State) : Ops s (takeServiceU bytes s) := by
  unfold takeServiceU
  split
  · exact .refl
  · unfold routeU
    split
    · exact .refl
    · split
      · exact .refl
      · split
        · exact ops_takeRequest _ _ _ s
        · split
          · exact (quiet_emitU _ _ s).ops
          · exact (quiet_queueForNode _ _ s).ops

theorem ops_takeServiceD (bytes : Bytes) (s : State) : Ops s (takeServiceD bytes s) := by
  unfold takeServiceD
  split
  · exact .refl
  · unfold routeD
    split
    · exact .refl
    · split
      · exact .refl
      · split
        · exact (quiet_emitU _ _ s).ops
        · exact ops_takeReply _ s

theorem ops_takeTelegram (port : Port) (bytes : Bytes) (s : State) : Ops s (takeTelegram port bytes s) := by
  unfold takeTelegram
  split
  · exact .refl
  · split
    · exact ops_takeCycle _ _ s
    · split
      · exact ops_takeServiceU _ s
      · exact .refl
  · split
    · exact ops_takeReturn _ s
    · split
      · exact ops_takeServiceD _ s
      · exact .refl

/-! ### Completions of the key store -/

theorem ops_serveSlot (slot : SlotNo) (s : State) : Ops s (serveSlot slot s) := by
  refine ops_serveAll (fun p t => ?_) s
  split
  · next h =>
    refine (Op.serveKey p ?_).ops
    simp only [keyMissingOf, Bool.and_eq_true, beq_iff_eq] at h
    exact h.1.1
  · exact .refl

theorem quiet_latchKeyDone (s : State) : Quiet s (latchKeyDone s) := ⟨rfl, le_rfl, id⟩

theorem ops_completeProgram {agrees : Bool} {slot : SlotNo} {key : Key} {due : Nat} {s : State}
    (h : s.kst.op = .programming slot key due) : Ops s (completeProgram agrees slot key s) := by
  have array := (Op.programmed slot key due (if agrees then .programmed key else .faulty)
    (if agrees then .programmed else .programFaulty) h).ops
  have verified := (array.tail (.quiet (quiet_latchKeyDone _))).trans (ops_verifyAll _)
  exact (verified.trans (ops_if (fun _ => ops_serveSlot slot _) fun _ => .refl)).tail .startPending

theorem ops_completeErase {checks : Vector Bool 4} {page : Fin 4} {due : Nat} {s : State} (h : s.kst.op = .erasing page due) :
    Ops s (completeErase checks page s) := by
  have array := (Op.erased page due (fun i => if checks[i] then .blank else .faulty)
    (if checks.toList.all id then .erased else .eraseFaulty) h).ops
  exact ((array.tail (.quiet (quiet_latchKeyDone _))).trans (ops_verifyAll _)).tail .startPending

theorem ops_completeProtect {boundary due : Nat} {s : State} (h : s.kst.op = .protecting boundary due) :
    Ops s (completeProtect boundary s) :=
  (((Op.lowered boundary due .protectDone h).ops.tail (.quiet (quiet_latchKeyDone _))).trans (ops_verifyAll _)).tail
    .startPending

theorem ops_completeEpoch {s : State} (h : ∃ due, s.kst.op = .epochUpdate due) : Ops s (completeEpoch s) :=
  (Op.epoch _ h).ops.trans (ops_verifyAll _)

/-! ### Commands and steps -/

theorem ops_breakOff (s : State) : Ops s (breakOff s) :=
  (quiet_fwd s { s.fwd with dSending := none, dWaiting := none, uSending := none, uReady := [] } le_rfl).ops.tail .abort

theorem ops_whenLive {f : State → State} {s t : State} (hf : Ops s (f s)) (h : whenLive f s = .next t) : Ops s t := by
  unfold whenLive at h
  cases h
  split
  · exact hf
  · exact .refl

theorem ops_onRequest {code : Byte} {f : Frame} {take : State → State} {s t : State} (ht : Ops s (take s))
    (h : onRequest code f take s = .next t) : Ops s t :=
  ops_whenLive (ops_if (fun _ => ht) fun _ => .refl) h

/-- Every command is a chain of operations. -/
theorem exec_ops {c : Instr} {s t : State} (h : exec c s = .next t) : Ops s t := by
  cases c with
  | por =>
    cases h
    exact ops_if (fun _ => (ops_breakOff s).tail (.quiet ⟨rfl, le_rfl, id⟩)) fun _ => (Op.reset .power).ops
  | powerLoss => cases h; exact (ops_breakOff s).tail (.quiet ⟨rfl, le_rfl, id⟩)
  | resetAssert =>
    cases h
    exact ops_if (fun _ => (ops_breakOff s).tail (.quiet ⟨rfl, le_rfl, id⟩)) fun _ => Quiet.ops ⟨rfl, le_rfl, id⟩
  | pinReset =>
    cases h
    refine ops_if (fun _ => .refl) fun _ => ?_
    split
    · exact (Op.reset .pin).ops
    · exact (Op.reset .power).ops
    · exact Quiet.ops ⟨rfl, le_rfl, id⟩
  | lineReset f => exact ops_whenLive (ops_if (fun _ => ops_takeLineReset _ s) fun _ => .refl) h
  | cycle body portFree => exact ops_whenLive (ops_takeCycle _ _ s) h
  | decayStep p => exact ops_whenLive (ops_if (fun _ => (Op.decay p).ops) fun _ => .refl) h
  | passageToRunning => exact ops_whenLive Op.pass.ops h
  | cycleTelegramSend => exact ops_whenLive (quiet_sendWaiting s).ops h
  | cycleReturn body => exact ops_whenLive (ops_takeReturn _ s) h
  | settlingComplete p counter =>
    refine ops_whenLive (ops_if (fun hd => ?_) fun _ => .refl) h
    simp only [settlingDue, Bool.and_eq_true, beq_iff_eq] at hd
    exact (Op.settle p counter hd.1.1 hd.1.2).ops
  | lossProcessing p =>
    refine ops_whenLive (ops_if (fun hd => ?_) fun _ => .refl) h
    simp only [lossDue, Bool.and_eq_true, beq_iff_eq] at hd
    exact (Op.lose p hd.1.1 hd.1.2).ops
  | stillTimeout => exact ops_whenLive (ops_becomeStill s) h
  | gapOpportunity => exact ops_whenLive (ops_takeOpportunity s) h
  | stillTurn => exact ops_whenLive (ops_takeTurn s) h
  | portUTransmit => exact ops_whenLive (ops_freePortU s) h
  | telegramWrongKind port bytes => exact ops_whenLive (ops_takeTelegram _ _ s) h
  | masterNodeRequest body => exact ops_whenLive (ops_takeServiceU _ s) h
  | tagWrite node f => exact ops_whenLive (ops_takeServiceU _ s) h
  | nodeReplyForward body => exact ops_whenLive (ops_takeServiceD _ s) h
  | ident node f => exact ops_whenLive (ops_takeVerifierReply _ _ _ s) h
  | answer node f => exact ops_whenLive (ops_takeVerifierReply _ _ _ s) h
  | noTag node f => exact ops_whenLive (ops_takeVerifierReply _ _ _ s) h
  | deadlineExpiry r => exact ops_whenLive (ops_takeDeadline _ s) h
  | readEntries f => exact ops_onRequest (ops_takeRead _ _ s) h
  | writeEntries f => exact ops_onRequest (ops_takeWrite _ _ s) h
  | hold f => exact ops_onRequest (ops_takeHold _ s) h
  | releaseHold f => exact ops_onRequest (ops_takeReleaseHold _ s) h
  | discardStaged f => exact ops_onRequest (ops_takeDiscard _ s) h
  | noticeDrain f => exact ops_onRequest (ops_takeDrain _ _ s) h
  | attentionRead f => exact ops_onRequest (ops_takeAttentionRead _ s) h
  | attentionMask f => exact ops_onRequest (ops_takeAttentionMask _ _ s) h
  | positionRelease f => exact ops_onRequest (ops_takeRelease _ _ s) h
  | positionRechallenge f => exact ops_onRequest (ops_takeRechallenge _ _ s) h
  | revokeInsert f => exact ops_onRequest (ops_takeRevokeInsert _ _ s) h
  | revokeRemove f => exact ops_onRequest (ops_takeRevokeRemove _ _ s) h
  | revokeClear f => exact ops_onRequest (ops_takeRevokeClear _ s) h
  | keyProgram f => exact ops_onRequest (ops_takeKeyProgram _ _ s) h
  | keyErase f => exact ops_onRequest (ops_takeKeyErase _ _ s) h
  | keyProtect f => exact ops_onRequest (ops_takeKeyProtect _ _ s) h
  | unknownRequest code f =>
    simp only [exec, execUnknownRequest] at h
    refine ops_onRequest ?_ h
    exact ops_if (fun _ => .refl) fun _ => ops_takeRequest _ _ _ s
  | programCompletion agrees =>
    simp only [exec, execProgramCompletion] at h
    refine ops_whenLive ?_ h
    split
    · next hop => exact ops_if (fun _ => ops_completeProgram hop) fun _ => .refl
    all_goals exact .refl
  | eraseCompletion checks =>
    simp only [exec, execEraseCompletion] at h
    refine ops_whenLive ?_ h
    split
    · next hop => exact ops_if (fun _ => ops_completeErase hop) fun _ => .refl
    all_goals exact .refl
  | protectCompletion =>
    simp only [exec, execProtectCompletion] at h
    refine ops_whenLive ?_ h
    split
    · next hop => exact ops_if (fun _ => ops_completeProtect hop) fun _ => .refl
    all_goals exact .refl
  | epochUpdateCompletion =>
    simp only [exec, execEpochUpdateCompletion] at h
    refine ops_whenLive ?_ h
    split
    · next hop => exact ops_if (fun _ => ops_completeEpoch ⟨_, hop⟩) fun _ => .refl
    all_goals exact .refl

/-- Every step is a chain of operations. -/
theorem step_ops {s t : State} (h : step s = .next t) : Ops s t := by
  unfold step at h
  split at h
  · cases h; exact (quiet_tick s).ops
  · next rest _ => exact (Quiet.ops (t := { s with pending := rest }) ⟨rfl, le_rfl, id⟩).trans (exec_ops h)

/-- What every operation keeps, every step keeps. -/
theorem step_keeps {inv : State → Prop} (hop : ∀ s t, Op s t → inv s → inv t) {s t : State} (h : step s = .next t) (hs : inv s) :
    inv t := by
  have chain := step_ops h
  clear h
  induction chain with
  | refl => exact hs
  | tail _ op ih => exact hop _ _ op ih

end Sys2Proof.Machine
end

section
/-! PROOFS. The records, the revocation list and the key store under every operation, and the obligations that every step
keeps the tables distinct and the protected slots unchanged. -/

namespace Sys2Proof.Machine

/-! ### Operations that leave the records alone -/

@[simp] theorem ask_records (p : Pos) (kind : RequestKind) (round : Option RoundKind) (s : State) :
    (ask p kind round s).sch.records = s.sch.records := by
  unfold ask
  split <;> rfl

@[simp] theorem callDue_records (p : Pos) (round : RoundKind) (s : State) :
    (callDue p round s).sch.records = s.sch.records := ask_records _ _ _ _

@[simp] theorem callNew_records (p : Pos) (s : State) : (callNew p s).sch.records = s.sch.records := ask_records _ _ _ _

@[simp] theorem force_sch (p : Pos) (v : Verdict) (reason : Reason) (s : State) : (force p v reason s).sch = s.sch :=
  notifyChange_sch _ _ _ _

@[simp] theorem rollback_sch (p : Pos) (s : State) : (rollback p s).sch = s.sch := force_sch _ _ _ _

@[simp] theorem evaluate_records (p : Pos) (reason : Reason) (s : State) :
    (evaluate p reason s).sch.records = s.sch.records := by
  unfold evaluate
  dsimp only
  split
  · rfl
  · split
    · rfl
    · split
      · rw [callDue_records, notifyChange_sch]; rfl
      · rw [notifyChange_sch]; rfl

@[simp] theorem addEvidence_sch (p : Pos) (w : Int) (s : State) : (addEvidence p w s).sch = s.sch := rfl

@[simp] theorem failAnswer_records (p : Pos) (e : ClassEntry) (s : State) :
    (failAnswer p e s).sch.records = s.sch.records := by
  unfold failAnswer
  dsimp only
  split
  · rw [force_sch, addEvidence_sch]
  · rw [evaluate_records, addEvidence_sch]

@[simp] theorem passAnswer_records (p : Pos) (e : ClassEntry) (o : Word32) (s : State) :
    (passAnswer p e o s).sch.records = s.sch.records := by
  unfold passAnswer
  dsimp only
  split
  · rw [rollback_sch, addEvidence_sch]
  · rw [evaluate_records]; rfl
  · rw [evaluate_records]; rfl

@[simp] theorem noAnswer_records (p : Pos) (s : State) : (noAnswer p s).sch.records = s.sch.records := by
  unfold noAnswer
  split
  · rfl
  · rw [evaluate_records, addEvidence_sch]

@[simp] theorem duplicateHolder_records (q : Pos) (s : State) : (duplicateHolder q s).sch.records = s.sch.records := by
  unfold duplicateHolder
  split
  · rfl
  · rw [evaluate_records, addEvidence_sch]

@[simp] theorem advanceSweep_sch (p : Pos) (s : State) : (advanceSweep p s).sch = s.sch := by
  unfold advanceSweep
  dsimp only
  split <;> rfl

@[simp] theorem advanceDecay_records (p : Pos) (s : State) : (advanceDecay p s).sch.records = s.sch.records := by
  unfold advanceDecay
  dsimp only
  split
  · split
    · rfl
    · split
      · rw [evaluate_records]; rfl
      · rfl
  · rfl

@[simp] theorem settlePresent_records (p : Pos) (bits : BitVec 14) (counter : BitVec 16) (s : State) :
    (settlePresent p bits counter s).sch.records = s.sch.records := by
  unfold settlePresent
  split
  · split
    · exact ask_records _ _ _ _
    · rfl
  · rfl

/-- A fold of operations that leave something alone leaves it alone. -/
theorem foldl_keeps {α β : Type} {f : α → State → State} {part : State → β} (hf : ∀ a s, part (f a s) = part s) (l : List α)
    (s : State) : part (l.foldl (fun t a => f a t) s) = part s := by
  induction l generalizing s with
  | nil => rfl
  | cons a l ih => exact (ih _).trans (hf a s)

@[simp] theorem sightingStep_records (p : Pos) (id : Identity) (s : State) :
    (sightingStep p id s).sch.records = s.sch.records :=
  foldl_keeps (part := fun s => s.sch.records) duplicateHolder_records _ _

@[simp] theorem classStep_records (p : Pos) (id : Identity) (duplicate : Bool) (s : State) :
    (classStep p id duplicate s).sch.records = s.sch.records := by
  unfold classStep
  split
  · unfold classUnknown
    rw [notifyChange_sch]; rfl
  · split
    · unfold classKnownDuplicate
      dsimp only
      rw [callNew_records]
      split
      · rfl
      · rw [notifyChange_sch]; rfl
    · exact callNew_records _ _

@[simp] theorem identify_records (p : Pos) (id : Identity) (s : State) :
    (identify p id s).sch.records = s.sch.records := by
  unfold identify
  dsimp only
  split
  · unfold revokeAtIdentification
    rw [modRun_sch, force_sch, modRun_sch, sightingStep_records]
  · rw [classStep_records, sightingStep_records]

@[simp] theorem noTagOutcome_sch (p : Pos) (s : State) : (noTagOutcome p s).sch = s.sch := notifyChange_sch _ _ _ _

/-! ### Records that keep their tags and positions -/

/-- Every record of `t` stands in `s` at its place with its tag and its position. -/
def RecordsFrom (s t : State) : Prop :=
  ∀ (i : RecNo) (r : Record), t.sch.records[i] = some r →
    ∃ r₀, s.sch.records[i] = some r₀ ∧ r₀.tag = r.tag ∧ r₀.position = r.position

namespace RecordsFrom

theorem of_eq {s t : State} (h : t.sch.records = s.sch.records) : RecordsFrom s t :=
  fun i r hr => ⟨r, by rw [← h]; exact hr, rfl, rfl⟩

theorem refl (s : State) : RecordsFrom s s := of_eq rfl

theorem trans {s t u : State} (h : RecordsFrom s t) (k : RecordsFrom t u) : RecordsFrom s u := by
  intro i r hr
  obtain ⟨r₁, h₁, ht₁, hp₁⟩ := k i r hr
  obtain ⟨r₀, h₀, ht₀, hp₀⟩ := h i r₁ h₁
  exact ⟨r₀, h₀, ht₀.trans ht₁, hp₀.trans hp₁⟩

theorem foldl {α : Type} {f : α → State → State} (hf : ∀ a s, RecordsFrom s (f a s)) (l : List α) (s : State) :
    RecordsFrom s (l.foldl (fun t a => f a t) s) := by
  induction l generalizing s with
  | nil => exact refl s
  | cons a l ih => exact (hf a s).trans (ih _)

theorem distinct {s t : State} (h : RecordsFrom s t) (hs : RecordsDistinct s) : RecordsDistinct t := by
  constructor
  · intro i j a b ha hb hab
    obtain ⟨a₀, ha₀, hta, hpa⟩ := h i a ha
    obtain ⟨b₀, hb₀, htb, hpb⟩ := h j b hb
    exact hs.apart i j a₀ b₀ ha₀ hb₀ (by rwa [hta, htb, hpa, hpb])
  · intro i a ha
    obtain ⟨a₀, ha₀, hta, -⟩ := h i a ha
    exact hta ▸ hs.tags i a₀ ha₀

/-- A place that is filled with its own record's tag and position, or freed. -/
theorem setRecord {i : RecNo} {x : Option Record} {s : State}
    (h : ∀ r, x = some r → ∃ r₀, s.sch.records[i] = some r₀ ∧ r₀.tag = r.tag ∧ r₀.position = r.position) :
    RecordsFrom s (setRecord i x s) := by
  intro j r hr
  by_cases hj : j = i
  · subst hj
    exact h r (by simpa using hr)
  · exact ⟨r, by simpa [hj] using hr, rfl, rfl⟩

theorem setRecord_none (i : RecNo) (s : State) : RecordsFrom s (Machine.setRecord i none s) := setRecord (by simp)

theorem freeRecordOf (p : Pos) (s : State) : RecordsFrom s (freeRecordOf p s) := by
  intro i r hr
  cases h : s.sch.records[i] with
  | none => rw [freeRecordOf_free p s i h] at hr; cases hr
  | some r₀ =>
    rw [freeRecordOf_kept p s i r₀ h] at hr
    split at hr
    · cases hr
    · cases hr; exact ⟨_, rfl, rfl, rfl⟩

end RecordsFrom

theorem abandon_from (p : Pos) (s : State) : RecordsFrom s (abandon p s) := RecordsFrom.freeRecordOf p s

theorem endRound_from (p : Pos) (s : State) : RecordsFrom s (endRound p s) := RecordsFrom.freeRecordOf p s

theorem removePart_from (reason : Reason) (phase : Phase) (p : Pos) (s : State) :
    RecordsFrom s (removePart reason phase p s) := by
  obtain ⟨-, hsch, -⟩ := removePart_parts reason phase p s
  exact (abandon_from p s).trans (.of_eq (by rw [hsch]; rfl))

theorem losePart_from (p : Pos) (s : State) : RecordsFrom s (losePart p s) := by
  unfold losePart
  split
  · exact .of_eq rfl
  · exact removePart_from _ _ p s

theorem missInput_from (p : Pos) (s : State) : RecordsFrom s (missInput p s) := by
  unfold missInput
  split
  · exact losePart_from p s
  · exact .of_eq rfl

theorem seatedInput_from (p : Pos) (i : Input) (s : State) : RecordsFrom s (seatedInput p i s) := by
  unfold seatedInput
  split
  · exact .of_eq rfl
  · exact removePart_from _ _ p s
  · exact missInput_from p s

theorem handleInput_from (p : Pos) (i : Input) (s : State) : RecordsFrom s (handleInput p i s) := by
  have entered (bits : BitVec 14) (counter : BitVec 16) : RecordsFrom s (enterSettling p bits counter s) :=
    .of_eq (settlePresent_records _ _ _ _)
  unfold handleInput
  split
  · exact .refl s
  · split
    · exact entered _ _
    · exact .of_eq rfl
    · exact missInput_from p s
  · split
    · exact .of_eq (settlePresent_records _ _ _ _)
    · exact removePart_from _ _ p s
    · exact missInput_from p s
  · exact seatedInput_from p i s
  · exact seatedInput_from p i s
  · exact seatedInput_from p i s
  · split
    · exact entered _ _
    · exact .of_eq rfl
    · exact .refl s

theorem verify_from (i : RecNo) (rec : Record) (nonce : Nonce) (slot : SlotNo) (odo response : Word32) (s : State) :
    RecordsFrom s (verify i rec nonce slot odo response s) := by
  have freed := RecordsFrom.setRecord_none i s
  have ended (t : State) (h : RecordsFrom s t) : RecordsFrom s (endRound rec.position t) := h.trans (endRound_from _ t)
  have cleared (f : Runtime → Runtime) : RecordsFrom s (modRun rec.position f (setRecord i none s)) :=
    freed.trans (.of_eq rfl)
  unfold verify
  dsimp only
  split
  · exact (ended _ (cleared _)).trans (.of_eq rfl)
  · exact (ended _ (cleared _)).trans (.of_eq rfl)
  · split
    · have passed (e : ClassEntry) := (cleared fun r => { r with keyMissing := false }).trans
        (.of_eq (passAnswer_records rec.position e odo _))
      have failed (e : ClassEntry) := (cleared fun r => { r with keyMissing := false }).trans
        (.of_eq (failAnswer_records rec.position e _))
      split
      · split
        · exact ended _ (passed _)
        · exact passed _
      · split
        · exact ended _ (failed _)
        · exact failed _
    · exact ended _ (cleared _)
    · exact ended _ (cleared _)
    · exact ended _ (cleared _)

theorem expire_from {i : RecNo} {rec : Record} {s : State} (h : s.sch.records[i] = some rec) :
    RecordsFrom s (expire i rec s) := by
  have freed := RecordsFrom.setRecord_none i s
  unfold expire
  split
  · exact .setRecord fun r hr => ⟨rec, h, by cases hr; exact ⟨rfl, rfl⟩⟩
  · split
    · exact freed.trans (.of_eq (by rw [noTagOutcome_sch]))
    · exact freed.trans (RecordsFrom.trans (.of_eq (noAnswer_records _ _)) (endRound_from _ _))

theorem eraseRecord_from (page : Fin 4) (i : RecNo) (s : State) : RecordsFrom s (eraseRecord page i s) := by
  unfold eraseRecord
  split
  · exact .refl s
  · split
    · exact ((RecordsFrom.setRecord_none i s).trans (.of_eq rfl)).trans (endRound_from _ _)
    · exact .refl s

theorem revokePosition_from (p : Pos) (s : State) : RecordsFrom s (revokePosition p s) :=
  (abandon_from p s).trans (.of_eq (by simp [revokePosition]))

@[simp] theorem serveKeyMissing_records (p : Pos) (s : State) : (serveKeyMissing p s).sch.records = s.sch.records := by
  unfold serveKeyMissing
  dsimp only
  split
  · rfl
  · exact callDue_records _ _ _

theorem serveAll_from {f : Pos → State → State} (hf : ∀ p s, RecordsFrom s (f p s)) (s : State) :
    RecordsFrom s (serveAll f s) := .foldl hf _ s

theorem reactConfig_from (p : Pos) (old new : PosConfig) (s : State) : RecordsFrom s (reactConfig p old new s) := by
  unfold reactConfig
  split
  · split
    · exact .refl s
    · exact removePart_from _ _ p s
  · split
    · split
      · exact .of_eq rfl
      · exact .refl s
    · split
      · exact .of_eq rfl
      · exact .refl s

theorem loseClass_from (p : Pos) (s : State) : RecordsFrom s (loseClass p s) := by
  unfold loseClass
  dsimp only
  refine (abandon_from p s).trans ?_
  split
  · exact .of_eq rfl
  · exact .of_eq (by rw [notifyChange_sch]; rfl)

@[simp] theorem gainClass_records (i : ClassIdx) (p : Pos) (s : State) : (gainClass i p s).sch.records = s.sch.records := by
  unfold gainClass
  split
  · rfl
  · exact callNew_records _ _

theorem stepTwo_from (old : Vector PosConfig 48) (x : EditItem) (s : State) : RecordsFrom s (stepTwo old x s) := by
  cases x with
  | config p c => exact reactConfig_from _ _ _ s
  | cls i e => exact .refl s

theorem stepThree_from (x : EditItem) (s : State) : RecordsFrom s (stepThree x s) := by
  cases x with
  | config p c => exact .refl s
  | cls i e =>
    unfold stepThree dropClass
    dsimp only
    refine serveAll_from (fun p t => ?_) s
    split
    · exact loseClass_from p t
    · exact .refl t

theorem stepFour_from (x : EditItem) (s : State) : RecordsFrom s (stepFour x s) := by
  cases x with
  | config p c => exact .refl s
  | cls i e =>
    unfold stepFour addClass
    dsimp only
    split
    · exact .refl s
    · refine serveAll_from (fun p t => ?_) s
      split
      · exact .of_eq (gainClass_records _ p t)
      · exact .refl t

theorem stepFive_from (old : Vector ClassEntry 32) (x : EditItem) (s : State) : RecordsFrom s (stepFive old x s) := by
  cases x with
  | config p c => exact .refl s
  | cls i e =>
    unfold stepFive
    dsimp only
    split
    · refine serveAll_from (fun p t => ?_) s
      split
      · exact .of_eq (evaluate_records p _ t)
      · exact .refl t
    · exact .refl s

theorem replaceEntry_from (x : EditItem) (s : State) : RecordsFrom s (replaceEntry x s) := by
  cases x with
  | config p c => exact .of_eq rfl
  | cls i e => exact .of_eq rfl

/-- The state after the five steps of an application, before the set is emptied (R166). -/
def fiveSteps (s : State) : State :=
  overItems (stepFive s.mgt.classes) s.mgt.edits (overItems stepFour s.mgt.edits (overItems stepThree s.mgt.edits
    (overItems (stepTwo s.configs) s.mgt.edits (overItems replaceEntry s.mgt.edits s))))

theorem applyEdits_eq (s : State) :
    applyEdits s = { fiveSteps s with mgt := { (fiveSteps s).mgt with edits := [] } } := rfl

theorem applyEdits_from (s : State) : RecordsFrom s (applyEdits s) := by
  have step (f : EditItem → State → State) (hf : ∀ x s, RecordsFrom s (f x s)) (t : State) :
      RecordsFrom t (overItems f s.mgt.edits t) := .foldl hf _ t
  have all : RecordsFrom s (fiveSteps s) :=
    ((((step _ replaceEntry_from s).trans (step _ (stepTwo_from s.configs) _)).trans (step _ stepThree_from _)).trans
      (step _ stepFour_from _)).trans (step _ (stepFive_from s.mgt.classes) _)
  rw [applyEdits_eq]
  exact all.trans (.of_eq rfl)

/-! ### A new record (R62, R68) -/

theorem freeRecord_some {s : State} {i : RecNo} (h : freeRecord s = some i) : s.sch.records[i] = none := by
  simpa using List.find?_some h

theorem tagInUse_iff (s : State) (tag : Nat) :
    tagInUse s tag = true ↔ ∃ (i : RecNo) (r : Record), s.sch.records[i] = some r ∧ r.tag = tag := by
  unfold tagInUse
  rw [List.any_eq_true]
  constructor
  · rintro ⟨x, hx, h⟩
    cases x with
    | none => cases h
    | some r =>
      obtain ⟨i, hi, e⟩ := List.mem_iff_getElem.1 hx
      exact ⟨⟨i, by simpa using hi⟩, r, by simpa using e, by simpa using h⟩
  · rintro ⟨i, r, h, e⟩
    refine ⟨some r, ?_, by simpa using e⟩
    rw [← h]
    exact Vector.mem_toList_iff.2 (Vector.getElem_mem _)

/-- The candidates for a tag, in the order in which they are tried (R62). -/
def tagCandidates (s : State) : List Nat := (List.range 15).map (fun k => (s.sch.tagCounter + k) % 15 + 1)

/-- A record place is free of four, so a candidate of fifteen is. -/
theorem exists_free_tag (s : State) : ∃ tag ∈ tagCandidates s, tagInUse s tag = false := by
  by_contra hall
  push Not at hall
  have used : ∀ k : Fin 15, ∃ (i : RecNo) (r : Record), s.sch.records[i] = some r ∧
      r.tag = (s.sch.tagCounter + k.val) % 15 + 1 := fun k =>
    (tagInUse_iff s _).1 (by
      simpa using hall _ (List.mem_map.2 ⟨k.val, List.mem_range.2 k.isLt, rfl⟩))
  choose place rec hrec htag using used
  have inj : Function.Injective place := by
    intro a b hab
    have hr : rec a = rec b := by
      have h := hrec a
      rw [hab, hrec b] at h
      exact (Option.some.inj h).symm
    have ht := htag a
    rw [hr, htag b] at ht
    ext
    omega
  have := Fintype.card_le_of_injective place inj
  simp at this

theorem nextTag_spec (s : State) : 1 ≤ nextTag s ∧ nextTag s ≤ 15 ∧ tagInUse s (nextTag s) = false := by
  obtain ⟨tag, hmem, hfree⟩ := exists_free_tag s
  have found : ((tagCandidates s).find? (fun t => !tagInUse s t)).isSome :=
    List.find?_isSome.2 ⟨tag, hmem, by simp [hfree]⟩
  obtain ⟨t, ht⟩ := Option.isSome_iff_exists.1 found
  have hnext : nextTag s = t := by
    unfold nextTag
    rw [show (List.range 15).map _ = tagCandidates s from rfl, ht]
    rfl
  obtain ⟨k, -, hk⟩ := List.mem_map.1 (List.mem_of_find?_eq_some ht)
  refine ⟨by omega, by omega, ?_⟩
  rw [hnext]
  simpa using List.find?_some ht

/-- A record is opened at a free place, with a tag and for a position that no record has. -/
theorem openRecord_distinct {p : Pos} {s : State} (hp : hasRecord s p = false) (q : Query) (hs : RecordsDistinct s) :
    RecordsDistinct (openRecord p q s) := by
  unfold openRecord
  split
  · exact hs
  · next i hi =>
    obtain ⟨hlow, hhigh, hunused⟩ := nextTag_spec s
    have unlike : ∀ (j : RecNo) (b : Record), s.sch.records[j] = some b → b.tag ≠ nextTag s ∧ b.position ≠ p := by
      refine fun j b hb => ⟨fun e => ?_, fun e => ?_⟩
      · exact Bool.false_ne_true (hunused.symm.trans ((tagInUse_iff s _).2 ⟨j, b, hb, e⟩))
      · exact Bool.false_ne_true (hp.symm.trans ((hasRecord_eq s p).2 ⟨j, b, hb, e⟩))
    have read (x : Record) (j : RecNo) (b : Record) (h : (setRecord i (some x) s).sch.records[j] = some b) :
        (j = i ∧ b = x) ∨ s.sch.records[j] = some b := by
      by_cases hj : j = i
      · subst hj; exact .inl ⟨rfl, by simpa using h.symm⟩
      · exact .inr (by simpa [hj] using h)
    constructor
    · intro j k a b ha hb hab
      rcases read _ j a ha with ⟨hj, ea⟩ | ha <;> rcases read _ k b hb with ⟨hk, eb⟩ | hb
      · rw [hj, hk]
      · subst ea; exact absurd hab (by simpa [eq_comm] using unlike k b hb)
      · subst eb; exact absurd hab (by simpa using unlike j a ha)
      · exact hs.apart j k a b ha hb hab
    · intro j a ha
      rcases read _ j a ha with ⟨-, ea⟩ | ha
      · subst ea; exact ⟨hlow, hhigh⟩
      · exact hs.tags j a ha

@[simp] theorem stepNonce_records (s : State) : (stepNonce s).sch.records = s.sch.records := by
  unfold stepNonce
  split <;> rfl

theorem issueChallenge_distinct {p : Pos} {s : State} (hp : hasRecord s p = false) (hs : RecordsDistinct s) :
    RecordsDistinct (issueChallenge p s) := by
  unfold issueChallenge
  split
  · exact hs
  · exact (RecordsFrom.of_eq (stepNonce_records _)).distinct (openRecord_distinct hp _ hs)

theorem startRound_records (p : Pos) (kind : RoundKind) (s : State) : (startRound p kind s).sch.records = s.sch.records := by
  unfold startRound
  split <;> rfl

/-- Whether a position holds a record is read off the records. -/
theorem hasRecord_congr {s t : State} (h : t.sch.records = s.sch.records) (p : Pos) : hasRecord t p = hasRecord s p := by
  unfold hasRecord
  rw [h]

/-! ### The choice of R64 and what it has tested -/

/-- What the scheduler has tested of its choice. -/
def ChoiceFits (s : State) : Choice → Prop
  | .resend _ => True
  | .continuation p => continuing s p = true
  | .queued e => e ∈ s.sch.queue ∧ issuable s e = true
  | .sweepIdent p => sweepable s p = true ∧ s.run[p].identity = none
  | .sweepRound p => sweepable s p = true ∧ s.run[p].identity ≠ none

theorem choose_fits {s : State} {c : Choice} (h : choose s = some c) : ChoiceFits s c := by
  unfold choose at h
  split at h
  · cases h; trivial
  · split at h
    · cases h
    · split at h
      · next p hp =>
        cases h
        split at hp
        · exact List.find?_some hp
        · cases hp
      · split at h
        · next e he =>
          cases h
          exact ⟨List.mem_of_find?_eq_some he, List.find?_some he⟩
        · split at h
          · next p hp =>
            have hsweep := List.find?_some hp
            split at h
            · next hid => cases h; exact ⟨hsweep, by simpa using hid⟩
            · next hid => cases h; exact ⟨hsweep, by simpa using hid⟩
          · cases h

theorem choice_noRecord {s : State} {c : Choice} (h : ChoiceFits s c) :
    match c with
    | .resend _ => True
    | .continuation p => hasRecord s p = false
    | .queued e => hasRecord s e.position = false
    | .sweepIdent p => hasRecord s p = false
    | .sweepRound p => hasRecord s p = false := by
  cases c with
  | resend i => trivial
  | continuation p =>
    simp only [ChoiceFits, continuing, Bool.and_eq_true, Bool.not_eq_true'] at h
    exact h.1.2
  | queued e =>
    simp only [ChoiceFits, issuable, Bool.and_eq_true, Bool.not_eq_true'] at h
    exact h.2.1
  | sweepIdent p =>
    simp only [ChoiceFits, sweepable, Bool.and_eq_true, Bool.not_eq_true'] at h
    exact h.1.1.2
  | sweepRound p =>
    simp only [ChoiceFits, sweepable, Bool.and_eq_true, Bool.not_eq_true'] at h
    exact h.1.1.2

theorem resend_from (i : RecNo) (s : State) : RecordsFrom s (resend i s) := by
  unfold resend
  split
  · exact .refl s
  · next rec h =>
    exact (RecordsFrom.setRecord (s := s) fun r hr => ⟨rec, h, by cases hr; exact ⟨rfl, rfl⟩⟩).trans (.of_eq rfl)

theorem fill_distinct {s : State} {c : Choice} (h : ChoiceFits s c) (hs : RecordsDistinct s) : RecordsDistinct (fill c s) := by
  have free := choice_noRecord h
  have same {t : State} (ht : t.sch.records = s.sch.records) : RecordsDistinct t := (RecordsFrom.of_eq ht).distinct hs
  have issued (p : Pos) (t : State) (ht : t.sch.records = s.sch.records) (hp : hasRecord s p = false) :
      RecordsDistinct (issueChallenge p t) := issueChallenge_distinct (by rwa [hasRecord_congr ht]) (same ht)
  have asked (p : Pos) (t : State) (ht : t.sch.records = s.sch.records) (hp : hasRecord s p = false) :
      RecordsDistinct (issueIdent p t) := openRecord_distinct (by rwa [hasRecord_congr ht]) _ (same ht)
  cases c with
  | resend i => exact (resend_from i s).distinct hs
  | continuation p => exact issued p _ rfl free
  | queued e =>
    unfold fill
    dsimp only
    split
    · exact asked _ _ rfl free
    · exact issued _ _ (startRound_records _ _ _) free
    · exact issued _ _ (startRound_records _ _ _) free
  | sweepIdent p => exact asked p _ rfl free
  | sweepRound p => exact issued p _ (startRound_records _ _ _) free

/-- Every operation keeps the records apart. -/
theorem op_recordsDistinct {s t : State} (h : Op s t) (hs : RecordsDistinct s) : RecordsDistinct t := by
  have allFree : (∀ i : RecNo, t.sch.records[i] = none) → RecordsDistinct t := fun h =>
    ⟨fun i j a b ha => (Option.some_ne_none a (ha.symm.trans (h i))).elim,
      fun i a ha => (Option.some_ne_none a (ha.symm.trans (h i))).elim⟩
  have kept : RecordsFrom s t → RecordsDistinct t := fun k => k.distinct hs
  cases h with
  | quiet q => exact kept (.of_eq (by rw [q.frame]))
  | reset kind => exact allFree fun i => by simp [resetTo, Sch.initial]
  | fill c _ hc => exact fill_distinct (choose_fits hc) hs
  | count =>
    refine kept (.of_eq ?_)
    unfold countStart passage
    split
    · dsimp only; split <;> rfl
    · rfl
  | pass =>
    refine kept (.of_eq ?_)
    unfold passage
    split <;> rfl
  | sweepAge p => exact kept (.of_eq (by rw [advanceSweep_sch]))
  | decay p => exact kept (.of_eq (advanceDecay_records p s))
  | input p i => exact kept (handleInput_from p i s)
  | settle p counter => exact kept (.of_eq (ask_records _ _ _ _))
  | lose p => exact kept (losePart_from p s)
  | apply => exact kept (applyEdits_from s)
  | identify i rec id => exact kept ((RecordsFrom.setRecord_none i s).trans (.of_eq (identify_records _ _ _)))
  | verify i rec => exact kept (verify_from i rec _ _ _ _ s)
  | expire i rec h => exact kept (expire_from h)
  | await i rec state h => exact kept (.setRecord fun r hr => ⟨rec, h, by cases hr; exact ⟨rfl, rfl⟩⟩)
  | reidentify p => exact kept (.of_eq (ask_records _ _ _ _))
  | call p round => exact kept (.of_eq (callDue_records _ _ _))
  | revoke p e => exact kept (revokePosition_from p s)
  | eraseRecord page i => exact kept (eraseRecord_from page i s)
  | serveKey p => exact kept (.of_eq (serveKeyMissing_records p s))
  | _ => exact kept (.of_eq rfl)

end Sys2Proof.Machine
end

section
/-! PROOFS. The order of the revocation list and the guard of the key store under every operation, the obligations that every
step keeps the tables distinct (O59) and the protected slots unchanged (O58), and the scores and queues of every step. -/

namespace Sys2Proof.Machine

/-! ### The order of the revocation list (R105) -/

/-- The key of a revocation entry, field by field. -/
def Revocation.key (e : Revocation) : ℕ ×ₗ ℕ ×ₗ ℕ := toLex (e.cls.toNat, toLex (e.lot.toNat, e.scope.rank))

theorem Revocation.before_iff (a b : Revocation) : a.before b = true ↔ a.key < b.key := by
  simp [Revocation.before, Revocation.key, Prod.Lex.toLex_lt_toLex, BitVec.lt_def, BitVec.toNat_inj]

theorem Scope.rank_injective : Function.Injective Scope.rank := by
  intro a b h
  cases a <;> cases b <;> simp_all [Scope.rank, BitVec.toNat_inj]

theorem Revocation.key_injective : Function.Injective Revocation.key := by
  rintro ⟨ca, la, sa⟩ ⟨cb, lb, sb⟩ h
  simp only [Revocation.key, EmbeddingLike.apply_eq_iff_eq, Prod.mk.injEq, BitVec.toNat_inj] at h
  obtain ⟨rfl, rfl, hs⟩ := h
  rw [Scope.rank_injective hs]

/-- An entry that is not in an ascending list is put between those before it and those behind it. -/
theorem insertRevocation_ascends {e : Revocation} {l : List Revocation} (he : e ∉ l)
    (hl : l.Pairwise (fun a b => a.before b = true)) :
    (insertRevocation e l).Pairwise (fun a b => a.before b = true) := by
  induction l with
  | nil => simp [insertRevocation]
  | cons x l ih =>
    obtain ⟨hx, hrest⟩ := List.pairwise_cons.1 hl
    simp only [List.mem_cons, not_or] at he
    by_cases hb : x.before e = true
    · have eq : insertRevocation e (x :: l) = x :: insertRevocation e l := by simp [insertRevocation, hb]
      rw [eq, List.pairwise_cons]
      refine ⟨fun y hy => ?_, ih he.2 hrest⟩
      simp only [insertRevocation, List.mem_append, List.mem_cons] at hy
      rcases hy with hy | rfl | hy
      · exact hx y (List.takeWhile_sublist _ |>.subset hy)
      · exact hb
      · exact hx y (List.dropWhile_sublist _ |>.subset hy)
    · have eq : insertRevocation e (x :: l) = e :: x :: l := by simp [insertRevocation, hb]
      rw [Revocation.before_iff, not_lt] at hb
      have hex : e.key < x.key := lt_of_le_of_ne hb fun h => he.1 (Revocation.key_injective h)
      rw [eq, List.pairwise_cons]
      refine ⟨fun y hy => ?_, hl⟩
      rw [Revocation.before_iff]
      rcases List.mem_cons.1 hy with rfl | hy
      · exact hex
      · exact hex.trans ((Revocation.before_iff _ _).1 (hx y hy))

/-! ### What a fill leaves alone -/

theorem openRecord_eq (p : Pos) (q : Query) (s : State) :
    openRecord p q s = { s with run := (openRecord p q s).run, sch := (openRecord p q s).sch, fwd := (openRecord p q s).fwd } := by
  unfold openRecord
  split <;> rfl

/-- The nonce step asks for an epoch update or leaves the key store alone (R89). -/
theorem stepNonce_kst (s : State) : (stepNonce s).kst = s.kst ∨ (stepNonce s).kst = s.kst.requestEpoch s.now := by
  unfold stepNonce
  split
  · exact .inr rfl
  · exact .inl rfl

/-- What the issue of a transaction may touch. -/
structure Issued (s t : State) : Prop where
  frame : t = { s with run := t.run, sch := t.sch, fwd := t.fwd, kst := t.kst }
  kst : t.kst = s.kst ∨ t.kst = s.kst.requestEpoch s.now
  scores : ScoresInRange s → ScoresInRange t
  master : t.fwd.masterQueue = s.fwd.masterQueue

namespace Issued

theorem refl (s : State) : Issued s s := ⟨rfl, .inl rfl, id, rfl⟩

/-- Work on a runtime half and the scheduler, and then an issue. -/
theorem behind {s u t : State} (hu : u = { s with run := u.run, sch := u.sch, fwd := u.fwd })
    (hs : ScoresInRange s → ScoresInRange u) (hm : u.fwd.masterQueue = s.fwd.masterQueue) (h : Issued u t) : Issued s t := by
  obtain ⟨hframe, hkst, hscores, hmaster⟩ := h
  refine ⟨by rw [hframe, hu], ?_, fun x => hscores (hs x), hmaster.trans hm⟩
  rw [hu] at hkst
  exact hkst

end Issued

theorem openRecord_issued (p : Pos) (q : Query) (s : State) : Issued s (openRecord p q s) := by
  unfold openRecord
  split
  · exact .refl s
  · exact ⟨rfl, .inl rfl, id, rfl⟩

theorem stepNonce_issued (s : State) : Issued s (stepNonce s) := by
  refine ⟨?_, stepNonce_kst s, ?_, ?_⟩
  all_goals unfold stepNonce; split
  all_goals first | rfl | exact id

theorem issueChallenge_issued (p : Pos) (s : State) : Issued s (issueChallenge p s) := by
  unfold issueChallenge
  split
  · exact .refl s
  · have opened := openRecord_issued p (.challenge (currentNonce s) ‹ClassEntry›.keySlot) s
    exact .behind (openRecord_eq _ _ s) opened.scores opened.master (stepNonce_issued _)

theorem modRun_scores {p : Pos} {f : Runtime → Runtime} (hf : ∀ r, (f r).score = r.score) (s : State)
    (h : ScoresInRange s) : ScoresInRange (modRun p f s) := (modRun_work_of_score p f s hf).scores h

theorem fill_issued (c : Choice) (s : State) : Issued s (fill c s) := by
  have started (p : Pos) (kind : RoundKind) (u : State) (hu : u = { s with run := u.run, sch := u.sch })
      (hs : ScoresInRange s → ScoresInRange u) : Issued s (issueChallenge p (startRound p kind u)) := by
    unfold startRound
    split
    · exact .behind (hu.trans (by rw [hu])) hs (by rw [hu]) (issueChallenge_issued p u)
    · refine .behind ?_ (fun h => ?_) ?_ (issueChallenge_issued p _)
      · rw [hu]; rfl
      · refine modRun_scores ?_ u (hs h)
        exact fun _ => rfl
      · rw [hu]; rfl
  have dequeued (p : Pos) (h : ScoresInRange s) : ScoresInRange (dequeue p s) :=
    modRun_scores (p := p) (f := fun r => { r with pendingRequest := none }) (fun _ => rfl) _ h
  cases c with
  | resend i =>
    unfold fill resend
    dsimp only
    split
    · exact .refl s
    · exact ⟨rfl, .inl rfl, id, rfl⟩
  | continuation p =>
    exact .behind rfl (modRun_scores (p := p) (f := fun r => { r with remaining := r.remaining - 1 }) (fun _ => rfl) s) rfl
      (issueChallenge_issued p _)
  | queued e =>
    unfold fill
    dsimp only
    split
    · exact .behind rfl (dequeued _) rfl (openRecord_issued e.position .ident _)
    · exact started _ _ _ rfl (dequeued _)
    · exact started _ _ _ rfl (dequeued _)
  | sweepIdent p =>
    exact .behind rfl
      (modRun_scores (p := p) (f := fun r => { r with phase := .identifying, sweepAge := 0 }) (fun _ => rfl) (moveCursor p s))
      rfl (openRecord_issued p .ident _)
  | sweepRound p => exact started p .sweep (moveCursor p s) rfl id

/-! ### What an operation can reach -/

/-- The key store goes on under its boundary: what is in flight stays guarded, the boundary does not rise, and the slots at or
above it stand (R178). -/
def Protects (k k' : KeyStore) : Prop :=
  OperationGuarded k →
    OperationGuarded k' ∧ k'.boundary ≤ k.boundary ∧ ∀ i : SlotNo, k.boundary ≤ i.val → k'.slots[i] = k.slots[i]

/-- What an operation can reach, by the parts of the state it works on. -/
inductive Reach (s : State) : State → Prop where
  | boundary {t : State} (h : BoundaryWork s t) : Reach s t
  | quiet {t : State} (h : Quiet s t) : Reach s t
  | issued {t : State} (h : Issued s t) : Reach s t
  | reset (kind : ResetKind) : Reach s (resetTo kind s)
  | keys {t : State} (h : Protects s.kst t.kst) (ht : t = { s with kst := t.kst, freeIndex := t.freeIndex }) : Reach s t
  | staged (items : List EditItem) (h : editsFit s.mgt.edits items = true) : Reach s (stage items s)
  | setup {t : State} (hr : ∀ p : Pos, t.run[p].score = s.run[p].score)
      (ht : t = { s with run := t.run, mgt := { s.mgt with setup := t.mgt.setup, setupLock := true } }) : Reach s t
  | removed (l : List Revocation) (h : l.Sublist s.revocations) : Reach s { s with revocations := l }
  | inserted (e : Revocation) (h : e ∉ s.revocations) (hl : s.revocations.length < 512) :
      Reach s { s with revocations := insertRevocation e s.revocations }

theorem Reach.work {s t : State} (h : PositionWork s t) : Reach s t := .boundary (.ofPositions h)

/-! ### The key store (R178 to R190) -/

namespace Protects

theorem refl (k : KeyStore) : Protects k k := fun h => ⟨h, le_rfl, fun _ _ => rfl⟩

theorem trans {k l m : KeyStore} (h : Protects k l) (h' : Protects l m) : Protects k m := by
  intro hk
  obtain ⟨hl, hb, hs⟩ := h hk
  obtain ⟨hm, hb', hs'⟩ := h' hl
  exact ⟨hm, hb'.trans hb, fun i hi => (hs' i (hb.trans hi)).trans (hs i hi)⟩

/-- Slots and boundary stand, and an operation that reaches no slot is in flight. -/
theorem of_same {k k' : KeyStore} (hop : OperationGuarded k → OperationGuarded k') (hb : k'.boundary = k.boundary)
    (hs : k'.slots = k.slots) : Protects k k' :=
  fun h => ⟨hop h, hb.le, fun i _ => by rw [hs]⟩

/-- The slot of a program in flight lies below the boundary. -/
theorem program {k : KeyStore} {slot : SlotNo} {key : Key} {due : Nat} (h : k.op = .programming slot key due) (x : KeySlot)
    {k' : KeyStore} (hs : k'.slots = k.slots.set slot.val x slot.isLt) (hb : k'.boundary = k.boundary) (hop : k'.op = .idle) :
    Protects k k' := by
  intro hg
  rw [OperationGuarded, h] at hg
  refine ⟨by rw [OperationGuarded, hop]; trivial, hb.le, fun i hi => ?_⟩
  have hne : slot.val ≠ i.val := by
    dsimp only at hg
    omega
  simp [hs, hne]

theorem setPage_other {page : Fin 4} {i : SlotNo} (h : pageOf i ≠ page) (f : Fin 4 → KeySlot) (slots : Vector KeySlot 16) :
    (setPage page f slots)[i] = slots[i] := by
  simp [setPage, h]

/-- The page of an erase in flight lies below the boundary. -/
theorem erase {k : KeyStore} {page : Fin 4} {due : Nat} (h : k.op = .erasing page due) (f : Fin 4 → KeySlot)
    {k' : KeyStore} (hs : k'.slots = setPage page f k.slots) (hb : k'.boundary = k.boundary) (hop : k'.op = .idle) :
    Protects k k' := by
  intro hg
  rw [OperationGuarded, h] at hg
  refine ⟨by rw [OperationGuarded, hop]; trivial, hb.le, fun i hi => ?_⟩
  have hpage : pageOf i ≠ page := by
    rintro rfl
    simp only [pageOf] at hg
    omega
  rw [hs]
  exact setPage_other hpage f k.slots

theorem requestEpoch (now : Nat) (k : KeyStore) : Protects k (k.requestEpoch now) := by
  unfold KeyStore.requestEpoch
  split
  · exact refl k
  · split
    · exact of_same (fun _ => trivial) rfl rfl
    all_goals exact of_same id rfl rfl

theorem startPending (now : Nat) (k : KeyStore) : Protects k (k.startPending now) := by
  unfold KeyStore.startPending
  split
  · exact of_same (fun _ => trivial) rfl rfl
  · exact refl k

theorem abort (written : Bool) (k : KeyStore) : Protects k (k.abort written) := by
  unfold KeyStore.abort
  split
  · next h => exact of_same (fun _ => by rw [OperationGuarded, h]; trivial) rfl rfl
  · next h => exact program h .faulty rfl rfl rfl
  · next h => exact erase h (fun _ => .faulty) rfl rfl rfl
  · exact of_same (fun _ => trivial) rfl rfl
  · exact of_same (fun _ => trivial) rfl rfl

theorem afterReset (now : Nat) (k : KeyStore) : Protects k (k.afterReset now) := by
  have idle : Protects k { k with op := .idle, epochPending := false, lastResult := .none } :=
    of_same (fun _ => trivial) rfl rfl
  exact idle.trans (requestEpoch now _)

end Protects

theorem recountPositions_score (n : Nat) (s : State) (p : Pos) : (recountPositions n s).run[p].score = s.run[p].score := by
  simp only [recountPositions, Fin.getElem_fin, Vector.getElem_ofFn]
  split
  · rfl
  · split <;> rfl

/-- What each operation can reach. -/
theorem op_reach {s t : State} (h : Op s t) : Reach s t := by
  have keys {k : KeyStore} (h : Protects s.kst k) : Reach s { s with kst := k } := .keys h rfl
  cases h with
  | quiet q => exact .quiet q
  | abort => exact .keys (.abort _ _) rfl
  | reset kind => exact .reset kind
  | count => exact .boundary (countStart_boundary s)
  | pass => exact .boundary (passage_boundary s)
  | sweepAge p => exact .work (advanceSweep_work p s)
  | decay p => exact .work (advanceDecay_work p s)
  | input p i => exact .work (handleInput_work p i s)
  | settle p counter => exact .work (completeSettling_work p counter s)
  | lose p => exact .work (losePart_work p s)
  | apply => exact .boundary (applyEdits_boundary s)
  | stage items h => exact .staged items h
  | discard => exact .boundary ⟨rfl, id, id, .inr rfl, id⟩
  | fill c => exact .issued (fill_issued c s)
  | identify i rec id => exact .work ((setRecord_work _ _ _).trans (identify_work _ _ _))
  | verify i rec => exact .work (verify_work _ _ _ _ _ _ _)
  | expire i rec => exact .work (expire_work _ _ _)
  | await i rec state => exact .work (setRecord_work _ _ _)
  | setup p => exact .setup (recountPositions_score _ _) rfl
  | release p => exact .work (modRun_work_of_score p _ s)
  | reidentify p => exact .work ((modRun_work_of_score p _ s).trans (ask_work _ _ _ _))
  | call p round => exact .work (callDue_work _ _ _)
  | revocations l h => exact .removed l h
  | insert e h hl => exact .inserted e h hl
  | revoke p e => exact .work (revokePosition_work _ _)
  | eraseRecord page i => exact .work (eraseRecord_work _ _ _)
  | serveKey p =>
    refine .work ?_
    unfold serveKeyMissing
    dsimp only
    split
    · exact modRun_work_of_score _ _ _
    · exact (modRun_work_of_score _ _ _).trans (callDue_work _ _ _)
  | start op h => exact keys (.of_same (fun _ => h) rfl rfl)
  | programmed slot key due x result h => exact keys (.program h x rfl rfl rfl)
  | erased page due f result h => exact keys (.erase h f rfl rfl rfl)
  | lowered boundary due result h =>
    refine keys fun hg => ?_
    rw [OperationGuarded, h] at hg
    exact ⟨trivial, le_of_lt hg, fun _ _ => rfl⟩
  | epoch e => exact keys (.of_same (fun _ => trivial) rfl rfl)
  | startPending => exact keys (.startPending _ _)

theorem op_protects {s t : State} (h : Op s t) : Protects s.kst t.kst := by
  cases op_reach h with
  | boundary w => rw [w.kst]; exact .refl _
  | quiet q => rw [q.frame]; exact .refl _
  | issued h =>
    rcases h.kst with hk | hk
    · rw [hk]; exact .refl _
    · rw [hk]; exact .requestEpoch _ _
  | reset kind => exact (Protects.abort _ _).trans (.afterReset _ _)
  | keys h => exact h
  | staged items h => exact .refl _
  | setup _ ht => rw [ht]; exact .refl _
  | removed l h => exact .refl _
  | inserted e h hl => exact .refl _

/-- Settles O58: each operation of the step goes on under the boundary. -/
theorem protectedSlotsNeverChange : Obligations.ProtectedSlotsNeverChange := by
  intro s t hs h
  have chain : Protects s.kst t.kst :=
    step_keeps (inv := fun u => Protects s.kst u.kst) (fun _ _ op k => k.trans (op_protects op)) h (.refl _)
  exact chain hs

/-! ### The tables that stay distinct -/

theorem op_revocationsAscend {s t : State} (h : Op s t) (hs : RevocationsAscend s) : RevocationsAscend t := by
  have kept {u : State} (hu : u.revocations = s.revocations) : RevocationsAscend u := by rwa [RevocationsAscend, hu]
  cases op_reach h with
  | boundary w => exact kept w.revocations
  | quiet q => exact kept (by rw [q.frame])
  | issued h => exact kept (by rw [h.frame])
  | reset kind =>
    unfold RevocationsAscend resetTo
    dsimp only
    split
    · exact hs
    · exact .nil
  | keys _ ht => exact kept (by rw [ht])
  | staged items h => exact kept rfl
  | setup _ ht => exact kept (by rw [ht])
  | removed l hl => exact List.Pairwise.sublist hl hs
  | inserted e he hl => exact insertRevocation_ascends he hs

/-- Settles O59. -/
theorem everyStepKeepsTablesDistinct : Obligations.EveryStepKeepsTablesDistinct := fun _ _ h =>
  ⟨step_keeps (fun _ _ => op_recordsDistinct) h, step_keeps (fun _ _ => op_revocationsAscend) h⟩

/-! ### Scores and queues -/

theorem cleared_scores {s : State} {phase : Pos → Phase} (h : ∀ p : Pos, s.run[p] = Runtime.cleared (phase p)) :
    ScoresInRange s := by
  intro p
  rw [h p]
  exact ⟨by simp [Runtime.cleared], by simp [Runtime.cleared]⟩

theorem op_scores {s t : State} (h : Op s t) (hs : ScoresInRange s) : ScoresInRange t := by
  have kept {u : State} (hu : ∀ p : Pos, u.run[p].score = s.run[p].score) : ScoresInRange u := by
    intro p
    rw [hu p]
    exact hs p
  cases op_reach h with
  | boundary w => exact w.scores hs
  | quiet q => exact kept fun p => by rw [q.frame]
  | issued h => exact h.scores hs
  | reset kind => exact cleared_scores fun p => by simp [resetTo, restingPositions]; rfl
  | keys _ ht => exact kept fun p => by rw [ht]
  | staged items h => exact kept fun _ => rfl
  | setup hr _ => exact kept hr
  | removed l h => exact kept fun _ => rfl
  | inserted e h hl => exact kept fun _ => rfl

/-- An item that joins the pending edit set lengthens it where it replaces none. -/
theorem stageItem_length (edits : List EditItem) (x : EditItem) :
    (stageItem edits x).length = edits.length + if edits.any x.sameEntry then 0 else 1 := by
  unfold stageItem
  split <;> simp [*]

theorem EditItem.sameEntry_iff (a b : EditItem) : a.sameEntry b = true ↔ a.entry = b.entry := by
  cases a <;> cases b <;> simp [sameEntry, entry]

/-- What a set holds an item for, it still holds one for after another item has joined. -/
theorem any_stageItem (edits : List EditItem) (x y : EditItem) (h : edits.any y.sameEntry = true) :
    (stageItem edits x).any y.sameEntry = true := by
  obtain ⟨z, hz, hyz⟩ := List.any_eq_true.1 h
  rw [EditItem.sameEntry_iff] at hyz
  rw [List.any_eq_true]
  unfold stageItem
  split
  · refine ⟨if x.sameEntry z then x else z, List.mem_map_of_mem hz, ?_⟩
    rw [EditItem.sameEntry_iff]
    split
    · next hxz => rw [hyz, (EditItem.sameEntry_iff x z).1 hxz]
    · exact hyz
  · exact ⟨z, List.mem_append_left _ hz, (EditItem.sameEntry_iff y z).2 hyz⟩

theorem newItems_cons (edits : List EditItem) (x : EditItem) (items : List EditItem) :
    newItems edits (x :: items) = newItems edits items + if edits.any x.sameEntry then 0 else 1 := by
  unfold newItems
  rw [List.countP_cons]
  by_cases h : edits.any x.sameEntry = true <;> simp [h]

/-- The staged set holds no more than the set before and the items that replace none. -/
theorem stage_length (items edits : List EditItem) :
    (items.foldl stageItem edits).length ≤ edits.length + newItems edits items := by
  induction items generalizing edits with
  | nil => simp
  | cons x items ih =>
    have fewer : newItems (stageItem edits x) items ≤ newItems edits items := by
      unfold newItems
      refine List.countP_mono_left fun y _ hy => ?_
      by_contra hn
      simp only [Bool.not_eq_true', Bool.not_eq_false] at hy hn
      rw [any_stageItem edits x y hn] at hy
      cases hy
    have := ih (stageItem edits x)
    rw [stageItem_length] at this
    rw [List.foldl_cons, newItems_cons]
    omega

theorem insertRevocation_length (e : Revocation) (l : List Revocation) : (insertRevocation e l).length = l.length + 1 := by
  have := congrArg List.length (List.takeWhile_append_dropWhile (p := fun x => x.before e) (l := l))
  simp only [insertRevocation, List.length_append, List.length_cons] at this ⊢
  omega

theorem op_queuesFit {s t : State} (h : Op s t) (hs : QueuesFit s) : QueuesFit t := by
  obtain ⟨hnotices, hedits, hmaster, hrevocations, hstart⟩ := hs
  cases op_reach h with
  | boundary w =>
    refine ⟨w.notices hnotices, ?_, by rw [w.fwd]; exact hmaster, by rw [w.revocations]; exact hrevocations,
      w.startCount hstart⟩
    rcases w.edits with h | h
    · rw [h]; exact hedits
    · rw [h]; exact Nat.zero_le _
  | quiet q =>
    refine ⟨q.notices.trans hnotices, ?_, q.master hmaster, ?_, ?_⟩
    all_goals rw [q.frame]; assumption
  | issued h =>
    refine ⟨?_, ?_, by rw [h.master]; exact hmaster, ?_, ?_⟩
    all_goals rw [h.frame]; assumption
  | reset kind =>
    refine ⟨?_, ?_, ?_, ?_, Nat.zero_le _⟩
    · cases kind <;> exact Nat.zero_le _
    · cases kind <;> exact Nat.zero_le _
    · cases kind <;> exact Nat.zero_le _
    · cases kind
      · exact Nat.zero_le _
      · exact Nat.zero_le _
      · exact hrevocations
  | keys _ ht =>
    rw [ht]
    exact ⟨hnotices, hedits, hmaster, hrevocations, hstart⟩
  | staged items hfit =>
    refine ⟨hnotices, (stage_length items s.mgt.edits).trans ?_, hmaster, hrevocations, hstart⟩
    exact of_decide_eq_true hfit
  | setup _ ht =>
    rw [ht]
    exact ⟨hnotices, hedits, hmaster, hrevocations, hstart⟩
  | removed l hl => exact ⟨hnotices, hedits, hmaster, hl.length_le.trans hrevocations, hstart⟩
  | inserted e h hl =>
    refine ⟨hnotices, hedits, hmaster, ?_, hstart⟩
    rw [insertRevocation_length]
    exact hl

end Sys2Proof.Machine
end

section
/-! PROOFS. What the rules promise of positions, request queue, records and sighting entries, cut into the parts that the
operations work on: the scheduler, each runtime half, and the sighting cache. -/

namespace Sys2Proof.Machine

/-! ### Runtime halves read at a position -/

theorem modRun_self (p : Pos) (f : Runtime → Runtime) (s : State) : (modRun p f s).run[p] = f s.run[p] :=
  modRun_run_self p f s

theorem modRun_other {p q : Pos} (h : q ≠ p) (f : Runtime → Runtime) (s : State) : (modRun p f s).run[q] = s.run[q] :=
  modRun_run_other h f s

/-! ### The parts of the order -/

/-- The scheduler's part: records, request queue, and the positions they name (R55 to R57). -/
structure SchOk (s : State) : Prop where
  records : RecordsDistinct s
  queueOnce : (s.sch.queue.map Request.position).Nodup
  queueGroups : ∃ urgent due : List Request, QueueGroups s.sch.queue urgent due
  queued : ∀ e ∈ s.sch.queue, s.run[e.position].phase = (if e.kind = .ident then .identifying else .challenging) ∧
    ∀ (i : RecNo) (r : Record), s.sch.records[i] = some r → r.position ≠ e.position
  identified : ∀ (i : RecNo) (r : Record), s.sch.records[i] = some r → r.query = .ident →
    s.run[r.position].phase = .identifying
  challenged : ∀ (i : RecNo) (r : Record) (nonce : Nonce) (slot : SlotNo), s.sch.records[i] = some r →
    r.query = .challenge nonce slot → s.run[r.position].phase = .challenging ∧ s.run[r.position].classIndex ≠ none

/-- One position's part: a runtime half under its configuration and the device state (R4 to R6, R26, R45, R112). -/
structure LocalOk (c : PosConfig) (d : DeviceState) (r : Runtime) : Prop where
  seated : r.identity ≠ none → r.phase = .challenging ∨ r.phase = .held
  unidentified : r.identity = none → r.classIndex = none ∧ r.latch = false
  latched : r.latch = true → r.verdict = .counterfeit ∨ r.verdict = .revoked
  revoked : r.verdict = .revoked → r.latch = true
  disabled : c.enabled = false → r.phase = .disabled
  starting : d = .starting → r.phase = .disabled ∨ r.phase = .vacant

/-- The sighting cache's part (R91, R95). -/
structure CacheOk (s : State) : Prop where
  sightedOnce : (s.sightings.map (fun e => (e.cls, e.serial))).Nodup
  holders : ∀ e ∈ s.sightings, ∀ p ∈ e.holders, ∃ id, s.run[p].identity = some id ∧ id.cls = e.cls ∧ id.serial = e.serial
  sighted : ∀ (p : Pos) (id : Identity), s.run[p].identity = some id → ∃ e ∈ s.sightings, p ∈ e.holders
  cacheFits : s.sightings.length ≤ 128

/-- `Orderly`, where the runtime halves of some positions are left out: those an operation is still at work on. -/
structure OrderlyBut (loose : Pos → Prop) (s : State) : Prop where
  sch : SchOk s
  atPos : ∀ p : Pos, ¬ loose p → LocalOk s.configs[p] s.device s.run[p]
  cache : CacheOk s
  locked : s.device = .running → s.mgt.setupLock = true
  edits : EditsOnce s.mgt.edits

/-- No position is left out. -/
def nowhere : Pos → Prop := fun _ => False

theorem orderly_iff (s : State) : Orderly s ↔ OrderlyBut nowhere s := by
  constructor
  · intro h
    exact
      { sch := ⟨h.records, h.queueOnce, h.queueGroups, h.queued, h.identified, h.challenged⟩
        atPos := fun p _ => ⟨h.seated p, h.unidentified p, h.latched p, h.revoked p, h.disabled p, fun hd => h.starting hd p⟩
        cache := ⟨h.sightedOnce, h.holders, h.sighted, h.cacheFits⟩
        locked := h.locked
        edits := h.edits }
  · intro h
    have atPos (p : Pos) := h.atPos p id
    exact
      { records := h.sch.records, queueOnce := h.sch.queueOnce, queueGroups := h.sch.queueGroups, queued := h.sch.queued,
        identified := h.sch.identified, challenged := h.sch.challenged,
        seated := fun p => (atPos p).seated, unidentified := fun p => (atPos p).unidentified,
        latched := fun p => (atPos p).latched, revoked := fun p => (atPos p).revoked,
        disabled := fun p => (atPos p).disabled, starting := fun hd p => (atPos p).starting hd,
        locked := h.locked, edits := h.edits, sightedOnce := h.cache.sightedOnce, holders := h.cache.holders,
        sighted := h.cache.sighted, cacheFits := h.cache.cacheFits }

theorem Orderly.but {s : State} (h : Orderly s) : OrderlyBut nowhere s := (orderly_iff s).1 h

theorem OrderlyBut.orderly {s : State} (h : OrderlyBut nowhere s) : Orderly s := (orderly_iff s).2 h

theorem OrderlyBut.localOk {s : State} (h : OrderlyBut nowhere s) (p : Pos) : LocalOk s.configs[p] s.device s.run[p] :=
  h.atPos p id

/-! ### Runtime halves -/

namespace LocalOk

variable {c : PosConfig} {d : DeviceState} {r r' : Runtime}

/-- A phase other than DISABLED is that of an enabled position. -/
theorem enabled (h : LocalOk c d r) (hp : r.phase ≠ .disabled) : c.enabled = true := by
  by_contra hc
  exact hp (h.disabled (by simpa using hc))

/-- A phase of a part is one of RUNNING. -/
theorem runs (h : LocalOk c d r) (hd : r.phase ≠ .disabled) (hv : r.phase ≠ .vacant) : d = .running := by
  cases d with
  | starting => exact ((h.starting rfl).elim hd hv).elim
  | running => rfl

/-- What the promises read of a runtime half stands. -/
theorem congr (h : LocalOk c d r) (hp : r'.phase = r.phase) (hi : r'.identity = r.identity) (hc : r'.classIndex = r.classIndex)
    (hl : r'.latch = r.latch) (hv : r'.verdict = r.verdict) : LocalOk c d r' := by
  obtain ⟨seated, unidentified, latched, revoked, disabled, starting⟩ := h
  constructor
  all_goals simpa only [hp, hi, hc, hl, hv]

/-- A part's runtime half goes on in a phase of RUNNING. -/
theorem goesOn (h : LocalOk c d r) (hp : r.phase = .challenging ∨ r.phase = .held ∨ r.phase = .identifying)
    (seated : r'.identity ≠ none → r'.phase = .challenging ∨ r'.phase = .held)
    (unidentified : r'.identity = none → r'.classIndex = none ∧ r'.latch = false)
    (latched : r'.latch = true → r'.verdict = .counterfeit ∨ r'.verdict = .revoked)
    (revoked : r'.verdict = .revoked → r'.latch = true) : LocalOk c d r' := by
  have hd : r.phase ≠ .disabled := by rcases hp with h | h | h <;> simp [h]
  have hv : r.phase ≠ .vacant := by rcases hp with h | h | h <;> simp [h]
  refine ⟨seated, unidentified, latched, revoked, fun hc => ?_, fun hs => ?_⟩
  · rw [h.enabled hd] at hc; cases hc
  · rw [h.runs hd hv] at hs; cases hs

/-- A cleared runtime half. -/
theorem cleared {phase : Phase} {reason : Option Reason} (hc : c.enabled = false → phase = .disabled)
    (hd : d = .starting → phase = .disabled ∨ phase = .vacant) :
    LocalOk c d { Runtime.cleared phase with reason := reason } :=
  ⟨fun h => absurd rfl h, fun _ => ⟨rfl, rfl⟩, fun h => by simp [Runtime.cleared] at h, fun h => by simp [Runtime.cleared] at h,
    hc, hd⟩

end LocalOk

/-! ### The scheduler -/

theorem enqueue_perm (e : Request) (q : List Request) : (enqueue e q).Perm (e :: q) := by
  have urgent : (q.takeWhile (fun x => x.kind != .due) ++ e :: q.dropWhile (fun x => x.kind != .due)).Perm (e :: q) := by
    refine List.perm_middle.trans ?_
    rw [List.takeWhile_append_dropWhile]
  unfold enqueue
  split
  · exact List.perm_append_singleton e q
  · exact urgent
  · exact urgent

/-- An entry that is put in leaves the queue in its two groups (R56). -/
theorem enqueue_groups {q urgent due : List Request} (e : Request) (h : QueueGroups q urgent due) :
    ∃ urgent' due', QueueGroups (enqueue e q) urgent' due' := by
  by_cases hk : e.kind = .due
  · refine ⟨urgent, due ++ [e], ?_, h.2.1, ?_⟩
    · unfold enqueue
      rw [hk, h.1]
      exact List.append_assoc _ _ _
    · intro x hx
      rcases List.mem_append.1 hx with hx | hx
      · exact h.2.2 x hx
      · rw [List.mem_singleton.1 hx]; exact hk
  · refine ⟨urgent ++ [e], due, enqueue_urgent e h hk, ?_, h.2.2⟩
    intro x hx
    rcases List.mem_append.1 hx with hx | hx
    · exact h.2.1 x hx
    · rw [List.mem_singleton.1 hx]; exact hk

/-- Entries taken out leave the queue in its two groups. -/
theorem QueueGroups.sublist {q q' urgent due : List Request} (h : QueueGroups q urgent due) (hq : q'.Sublist q) :
    ∃ urgent' due', QueueGroups q' urgent' due' := by
  rw [h.1] at hq
  obtain ⟨u, d, rfl, hu, hd⟩ := List.sublist_append_iff.1 hq
  exact ⟨u, d, rfl, fun e he => h.2.1 e (hu.subset he), fun e he => h.2.2 e (hd.subset he)⟩

/-- The scheduler's view of a position: its phase, and whether it has a class. -/
def SameWork (r r' : Runtime) : Prop := r'.phase = r.phase ∧ (r.classIndex ≠ none → r'.classIndex ≠ none)

theorem SameWork.refl (r : Runtime) : SameWork r r := ⟨rfl, id⟩

namespace SchOk

variable {s t : State}

theorem entry_phase (h : SchOk s) {e : Request} (he : e ∈ s.sch.queue) :
    s.run[e.position].phase = .identifying ∨ s.run[e.position].phase = .challenging := by
  have := (h.queued e he).1
  split at this
  · exact .inl this
  · exact .inr this

theorem record_phase (h : SchOk s) {i : RecNo} {r : Record} (hr : s.sch.records[i] = some r) :
    s.run[r.position].phase = .identifying ∨ s.run[r.position].phase = .challenging := by
  cases hq : r.query with
  | ident => exact .inl (h.identified i r hr hq)
  | challenge nonce slot => exact .inr (h.challenged i r nonce slot hr hq).1

/-- In another phase than IDENTIFYING and CHALLENGING a position has neither entry nor record. -/
theorem unasked (h : SchOk s) {p : Pos} (hi : s.run[p].phase ≠ .identifying) (hc : s.run[p].phase ≠ .challenging) :
    Unasked s p := by
  refine ⟨fun e he hp => ?_, fun i r hr hp => ?_⟩
  · subst hp
    exact (h.entry_phase he).elim hi hc
  · subst hp
    exact (h.record_phase hr).elim hi hc

/-- Entries and records taken out, with the runtime halves of those that stay as the scheduler sees them. -/
theorem shrink (h : SchOk s)
    (hrec : ∀ (i : RecNo) (r : Record), t.sch.records[i] = some r → ∃ r₀, s.sch.records[i] = some r₀ ∧
      r₀.tag = r.tag ∧ r₀.position = r.position ∧ r₀.query = r.query)
    (hq : t.sch.queue.Sublist s.sch.queue)
    (hrun : ∀ p : Pos, ¬ Unasked t p → SameWork s.run[p] t.run[p]) : SchOk t := by
  have recorded {i : RecNo} {r : Record} (hr : t.sch.records[i] = some r) : ¬ Unasked t r.position :=
    fun hu => hu.2 i r hr rfl
  obtain ⟨urgent, due, hg⟩ := h.queueGroups
  refine ⟨?_, (hq.map _).nodup h.queueOnce, hg.sublist hq, fun e he => ⟨?_, fun i r hr => ?_⟩, fun i r hr hident => ?_,
    fun i r nonce slot hr hch => ?_⟩
  · refine RecordsFrom.distinct (fun i r hr => ?_) h.records
    obtain ⟨r₀, h₀, htag, hpos, -⟩ := hrec i r hr
    exact ⟨r₀, h₀, htag, hpos⟩
  · rw [(hrun e.position fun hu => hu.1 e he rfl).1]
    exact (h.queued e (hq.subset he)).1
  · obtain ⟨r₀, h₀, -, hpos, -⟩ := hrec i r hr
    rw [← hpos]
    exact (h.queued e (hq.subset he)).2 i r₀ h₀
  · obtain ⟨r₀, h₀, -, hpos, hquery⟩ := hrec i r hr
    have hp := h.identified i r₀ h₀ (hquery.trans hident)
    simp only [hpos] at hp
    rw [(hrun r.position (recorded hr)).1, hp]
  · obtain ⟨r₀, h₀, -, hpos, hquery⟩ := hrec i r hr
    obtain ⟨hp, hc⟩ := h.challenged i r₀ nonce slot h₀ (hquery.trans hch)
    simp only [hpos] at hp hc
    obtain ⟨hphase, hcls⟩ := hrun r.position (recorded hr)
    exact ⟨hphase.trans hp, hcls hc⟩

/-- The scheduler's state stands, and with it what it sees of the positions it is at work for. -/
theorem congr (h : SchOk s) (hrec : t.sch.records = s.sch.records) (hq : t.sch.queue = s.sch.queue)
    (hrun : ∀ p : Pos, ¬ Unasked s p → SameWork s.run[p] t.run[p]) : SchOk t := by
  refine h.shrink (fun i r hr => ⟨r, by rw [← hrec]; exact hr, rfl, rfl, rfl⟩) (by rw [hq]) fun p hp => hrun p ?_
  unfold Unasked at hp ⊢
  rwa [hrec, hq] at hp

/-- A position with neither entry nor record gets an entry of its phase's kind. -/
theorem asked (h : SchOk s) {p : Pos} {kind : RequestKind} (hp : Unasked s p)
    (hq : t.sch.queue = enqueue { position := p, kind } s.sch.queue) (hrec : t.sch.records = s.sch.records)
    (hother : ∀ q : Pos, q ≠ p → SameWork s.run[q] t.run[q])
    (hphase : t.run[p].phase = if kind = .ident then .identifying else .challenging) : SchOk t := by
  obtain ⟨urgent, due, hg⟩ := h.queueGroups
  have mem (e : Request) : e ∈ t.sch.queue ↔ e = { position := p, kind } ∨ e ∈ s.sch.queue := by
    rw [hq, (enqueue_perm _ _).mem_iff, List.mem_cons]
  have record {i : RecNo} {r : Record} (hr : t.sch.records[i] = some r) : s.sch.records[i] = some r := by rwa [← hrec]
  have other {i : RecNo} {r : Record} (hr : t.sch.records[i] = some r) : SameWork s.run[r.position] t.run[r.position] :=
    hother _ (hp.2 i r (record hr))
  refine ⟨(RecordsFrom.of_eq hrec).distinct h.records, ?_, ?_, fun e he => ?_, fun i r hr hident => ?_,
    fun i r nonce slot hr hch => ?_⟩
  · rw [hq, ((enqueue_perm _ _).map _).nodup_iff, List.map_cons, List.nodup_cons]
    refine ⟨fun hm => ?_, h.queueOnce⟩
    obtain ⟨e, he, hpos⟩ := List.mem_map.1 hm
    exact hp.1 e he hpos
  · rw [hq]
    exact enqueue_groups _ hg
  · rcases (mem e).1 he with rfl | he
    · exact ⟨hphase, fun i r hr => hp.2 i r (record hr)⟩
    · have hne := hp.1 e he
      refine ⟨?_, fun i r hr => (h.queued e he).2 i r (record hr)⟩
      rw [(hother e.position hne).1]
      exact (h.queued e he).1
  · rw [(other hr).1]
    exact h.identified i r (record hr) hident
  · obtain ⟨hphase, hcls⟩ := other hr
    obtain ⟨hp, hc⟩ := h.challenged i r nonce slot (record hr) hch
    exact ⟨hphase.trans hp, hcls hc⟩

end SchOk

/-! ### The sighting cache -/

/-- The class and serial of a sighting entry. -/
def Sighting.key (e : Sighting) : Code × Serial := (e.cls, e.serial)

theorem touchFirst_cases (test : Sighting → Bool) (f : Sighting → Sighting) (l : List Sighting) :
    (touchFirst test f l = l ∧ ∀ e ∈ l, test e = false) ∨
      ∃ a e b, l = a ++ e :: b ∧ (∀ x ∈ a, test x = false) ∧ test e = true ∧ touchFirst test f l = f e :: (a ++ b) := by
  cases h : l.find? test with
  | none =>
    have hnone : ∀ e ∈ l, test e = false := by simpa using h
    exact .inl ⟨touchFirst_none test f l hnone, hnone⟩
  | some e =>
    obtain ⟨he, a, b, rfl, ha⟩ := List.find?_eq_some_iff_append.1 h
    have ha : ∀ x ∈ a, test x = false := by simpa using ha
    exact .inr ⟨a, e, b, rfl, ha, he, touchFirst_some test f a e b ha he⟩

/-- The entries of a cut list, the one at the cut first. -/
theorem mem_cut {α : Type} {a b : List α} {e x : α} : x ∈ a ++ e :: b ↔ x = e ∨ x ∈ a ++ b := by
  simp only [List.mem_append, List.mem_cons]
  tauto

theorem nodup_cut {a b : List Sighting} {e : Sighting} :
    ((a ++ e :: b).map Sighting.key).Nodup ↔ (∀ x ∈ a ++ b, x.key ≠ e.key) ∧ ((a ++ b).map Sighting.key).Nodup := by
  have : ((a ++ e :: b).map Sighting.key).Perm (e.key :: (a ++ b).map Sighting.key) := List.perm_middle.map Sighting.key
  rw [this.nodup_iff, List.nodup_cons]
  simp only [List.mem_map, not_exists, not_and]

namespace CacheOk

variable {s t : State}

/-- The key of an entry that a position holds is that of its identity. -/
theorem key_of_holder (h : CacheOk s) {e : Sighting} (he : e ∈ s.sightings) {p : Pos} (hp : p ∈ e.holders) :
    ∃ id, s.run[p].identity = some id ∧ e.key = (id.cls, id.serial) := by
  obtain ⟨id, hid, hc, hs⟩ := h.holders e he p hp
  exact ⟨id, hid, by rw [Sighting.key, hc, hs]⟩

/-- Two entries with one holder carry one key. -/
theorem one_key (h : CacheOk s) {e x : Sighting} (he : e ∈ s.sightings) (hx : x ∈ s.sightings) {p : Pos} (hpe : p ∈ e.holders)
    (hpx : p ∈ x.holders) : x.key = e.key := by
  obtain ⟨id, hid, hk⟩ := h.key_of_holder he hpe
  obtain ⟨id', hid', hk'⟩ := h.key_of_holder hx hpx
  rw [hid, Option.some.injEq] at hid'
  rw [hk, hk', hid']

theorem congr (h : CacheOk s) (hs : t.sightings = s.sightings) (hr : ∀ p : Pos, t.run[p].identity = s.run[p].identity) :
    CacheOk t := by
  obtain ⟨once, holders, sighted, fits⟩ := h
  refine ⟨by rwa [hs], fun e he p hp => ?_, fun p id hid => ?_, by rwa [hs]⟩
  · rw [hr p]
    exact holders e (by rwa [hs] at he) p hp
  · rw [hs]
    exact sighted p id (by rwa [← hr p])

/-- One entry is touched: it comes to the front with its key, and its holders are seen to. -/
theorem replaced (h : CacheOk s) {a b : List Sighting} {e e' : Sighting} (hl : s.sightings = a ++ e :: b)
    (ht : t.sightings = e' :: (a ++ b)) (hk : e'.key = e.key)
    (holds : ∀ p ∈ e'.holders, ∃ id, t.run[p].identity = some id ∧ e.key = (id.cls, id.serial))
    (others : ∀ x ∈ a ++ b, ∀ p ∈ x.holders, t.run[p].identity = s.run[p].identity)
    (sighted : ∀ (p : Pos) (id : Identity), t.run[p].identity = some id →
      p ∈ e'.holders ∨ (s.run[p].identity = some id ∧ p ∉ e.holders)) : CacheOk t := by
  have mem {x : Sighting} (hx : x ∈ a ++ b) : x ∈ s.sightings := by rw [hl, mem_cut]; exact .inr hx
  have once : ((a ++ e :: b).map Sighting.key).Nodup := hl ▸ h.sightedOnce
  refine ⟨?_, fun x hx p hp => ?_, fun p id hid => ?_, ?_⟩
  · rw [ht]
    obtain ⟨hfirst, hrest⟩ := nodup_cut.1 once
    exact (nodup_cut (a := [])).2 ⟨fun x hx => by rw [hk]; exact hfirst x hx, hrest⟩
  · rw [ht] at hx
    rcases List.mem_cons.1 hx with rfl | hx
    · obtain ⟨id, hid, hkey⟩ := holds p hp
      rw [← hk, Sighting.key, Prod.mk.injEq] at hkey
      exact ⟨id, hid, hkey.1.symm, hkey.2.symm⟩
    · rw [others x hx p hp]
      exact h.holders x (mem hx) p hp
  · rw [ht]
    rcases sighted p id hid with hp | ⟨hold, hp⟩
    · exact ⟨e', List.mem_cons_self, hp⟩
    · obtain ⟨x, hx, hpx⟩ := h.sighted p id hold
      rw [hl, mem_cut] at hx
      rcases hx with rfl | hx
      · exact absurd hpx hp
      · exact ⟨x, List.mem_cons_of_mem _ hx, hpx⟩
  · have := h.cacheFits
    rw [hl] at this
    rw [ht]
    simpa [Nat.add_assoc] using this

/-- An odometer is recorded: the entry keeps its key and its holders (R99). -/
theorem recorded (h : CacheOk s) {p : Pos} {f : Sighting → Sighting} (hf : ∀ e, (f e).key = e.key ∧ (f e).holders = e.holders)
    (hs : t.sightings = touchFirst (Sighting.heldBy p) f s.sightings)
    (hr : ∀ q : Pos, t.run[q].identity = s.run[q].identity) : CacheOk t := by
  rcases touchFirst_cases (Sighting.heldBy p) f s.sightings with ⟨hl, -⟩ | ⟨a, e, b, hl, -, -, htouch⟩
  · exact h.congr (hs.trans hl) hr
  · refine h.replaced hl (hs.trans htouch) (hf e).1 (fun q hq => ?_) (fun x _ q _ => hr q) fun q id hid => ?_
    · rw [(hf e).2] at hq
      rw [hr q]
      exact h.key_of_holder (by rw [hl, mem_cut]; exact .inl rfl) hq
    · rw [(hf e).2]
      rw [hr q] at hid
      by_cases hq : q ∈ e.holders
      · exact .inl hq
      · exact .inr ⟨hid, hq⟩

theorem heldBy_iff (p : Pos) (e : Sighting) : e.heldBy p = true ↔ p ∈ e.holders := by
  simp [Sighting.heldBy]

/-- A part leaves: its position holds no identity and stands in no holders list any more (R98). -/
theorem left (h : CacheOk s) {p : Pos}
    (hs : t.sightings = touchFirst (Sighting.heldBy p) (fun e => { e with holders := e.holders.filter (fun q => q != p) })
      s.sightings)
    (hp : t.run[p].identity = none) (hr : ∀ q : Pos, q ≠ p → t.run[q].identity = s.run[q].identity) : CacheOk t := by
  have gone {q : Pos} {id : Identity} (hq : t.run[q].identity = some id) : q ≠ p := by
    rintro rfl
    rw [hp] at hq
    cases hq
  rcases touchFirst_cases (Sighting.heldBy p) _ s.sightings with ⟨hl, hnone⟩ | ⟨a, e, b, hl, -, he, htouch⟩
  · have hs := hs.trans hl
    have apart {x : Sighting} (hx : x ∈ s.sightings) {q : Pos} (hq : q ∈ x.holders) : q ≠ p := by
      rintro rfl

      exact absurd (hnone x hx) (by simpa [Sighting.heldBy] using hq)
    refine ⟨by rw [hs]; exact h.sightedOnce, fun x hx q hq => ?_, fun q id hid => ?_, by rw [hs]; exact h.cacheFits⟩
    · rw [hs] at hx
      rw [hr q (apart hx hq)]
      exact h.holders x hx q hq
    · rw [hs]
      rw [hr q (gone hid)] at hid
      exact h.sighted q id hid
  · have hmem : e ∈ s.sightings := by rw [hl, mem_cut]; exact .inl rfl
    rw [heldBy_iff] at he
    obtain ⟨hfirst, -⟩ := nodup_cut.1 (hl ▸ h.sightedOnce : ((a ++ e :: b).map Sighting.key).Nodup)
    refine h.replaced hl (hs.trans htouch) rfl (fun q hq => ?_) (fun x hx q hq => ?_) fun q id hid => ?_
    · obtain ⟨hq, hne⟩ := List.mem_filter.1 hq
      rw [hr q (by simpa using hne)]
      exact h.key_of_holder hmem hq
    · refine hr q fun hqp => hfirst x hx ?_
      subst hqp
      exact h.one_key hmem (by rw [hl, mem_cut]; exact .inr hx) he hq
    · have hne := gone hid
      rw [hr q hne] at hid
      by_cases hq : q ∈ e.holders
      · exact .inl (List.mem_filter.2 ⟨hq, by simpa using hne⟩)
      · exact .inr ⟨hid, hq⟩

/-! ### A part joins (R93, R94) -/

theorem mem_addHolder (p q : Pos) (holders : List Pos) : q ∈ addHolder p holders ↔ q = p ∨ q ∈ holders := by
  unfold addHolder
  split
  · next h =>
    have : p ∈ holders := by simpa using h
    exact ⟨.inr, fun hq => hq.elim (fun e => e ▸ this) id⟩
  · exact List.mem_orderedInsert _

/-- Entries with holders are at most as many as the positions. -/
theorem held_le (h : CacheOk s) (hheld : ∀ e ∈ s.sightings, e.holders ≠ []) : s.sightings.length ≤ 48 := by
  have holder (i : Fin s.sightings.length) : ∃ p, p ∈ s.sightings[i].holders :=
    List.exists_mem_of_ne_nil _ (hheld _ (List.getElem_mem _))
  choose p hp using holder
  have inj : Function.Injective p := by
    intro i j hij
    have hk : (s.sightings.map Sighting.key)[i.val]'(by simp) = (s.sightings.map Sighting.key)[j.val]'(by simp) := by
      rw [List.getElem_map, List.getElem_map]
      exact h.one_key (List.getElem_mem _) (List.getElem_mem _) (hp j) (hij ▸ hp i)
    exact Fin.ext ((List.Nodup.getElem_inj_iff h.sightedOnce).1 hk)
  simpa using Fintype.card_le_of_injective p inj

theorem evict_cases (l : List Sighting) :
    (evict l = l ∧ ∀ e ∈ l, e.holders ≠ []) ∨
      ∃ a e b, l = a ++ e :: b ∧ e.holders = [] ∧ (∀ x ∈ b, x.holders ≠ []) ∧ evict l = a ++ b := by
  rcases List.exists_or_eq_self_of_eraseP (fun e : Sighting => e.holders.isEmpty) l.reverse with h | ⟨e, a, b, ha, he, hl, hr⟩
  · by_cases hall : ∀ e ∈ l, e.holders ≠ []
    · refine .inl ⟨?_, hall⟩
      unfold evict
      rw [h, List.reverse_reverse]
    · push Not at hall
      obtain ⟨e, he, hempty⟩ := hall
      have := List.length_eraseP_of_mem (p := fun e : Sighting => e.holders.isEmpty) (List.mem_reverse.2 he) (by simp [hempty])
      rw [h] at this
      have := List.length_pos_of_mem (List.mem_reverse.2 he)
      omega
  · refine .inr ⟨b.reverse, e, a.reverse, ?_, by simpa using he, fun x hx => by simpa using ha x (List.mem_reverse.1 hx), ?_⟩
    · rw [← List.reverse_reverse l, hl]
      simp
    · unfold evict
      rw [hr]
      simp

/-- A part without an identity takes one and joins the entry of its class and serial, found or made. -/
theorem joined (h : CacheOk s) {p : Pos} {id : Identity} (hs : t.sightings = sight p id.cls id.serial s.sightings)
    (hnone : s.run[p].identity = none) (hp : t.run[p].identity = some id)
    (hr : ∀ q : Pos, q ≠ p → t.run[q].identity = s.run[q].identity) : CacheOk t := by
  have apart {x : Sighting} (hx : x ∈ s.sightings) {q : Pos} (hq : q ∈ x.holders) : q ≠ p := by
    rintro rfl
    obtain ⟨id', hid, -⟩ := h.key_of_holder hx hq
    rw [hnone] at hid
    cases hid
  have hasKey (e : Sighting) : Sighting.hasKey id.cls id.serial e = true ↔ e.key = (id.cls, id.serial) := by
    simp [Sighting.hasKey, Sighting.key]
  unfold sight at hs
  split at hs
  · next e₀ he₀ =>
    rcases touchFirst_cases (Sighting.hasKey id.cls id.serial) (fun e => { e with holders := addHolder p e.holders })
      s.sightings with ⟨-, hno⟩ | ⟨a, e, b, hl, -, he, htouch⟩
    · have := hno e₀ (List.mem_of_find?_eq_some he₀)
      rw [List.find?_some he₀] at this
      cases this
    · have hmem : e ∈ s.sightings := by rw [hl, mem_cut]; exact .inl rfl
      refine h.replaced hl (hs.trans htouch) rfl (fun q hq => ?_) (fun x hx q hq => ?_) fun q id' hid => ?_
      · rcases (mem_addHolder p q e.holders).1 hq with rfl | hq
        · exact ⟨id, hp, (hasKey e).1 he⟩
        · rw [hr q (apart hmem hq)]
          exact h.key_of_holder hmem hq
      · exact hr q (apart (by rw [hl, mem_cut]; exact .inr hx) hq)
      · by_cases hqp : q = p
        · exact .inl ((mem_addHolder p q e.holders).2 (.inl hqp))
        · rw [hr q hqp] at hid
          by_cases hq : q ∈ e.holders
          · exact .inl ((mem_addHolder p q e.holders).2 (.inr hq))
          · exact .inr ⟨hid, hq⟩
  · next hfind =>
    have unlike : ∀ x ∈ s.sightings, x.key ≠ (id.cls, id.serial) := fun x hx hk => by
      have := List.find?_eq_none.1 hfind x hx
      exact this ((hasKey x).2 hk)
    have key : ∀ rest : List Sighting, rest.Sublist s.sightings → rest.length + 1 ≤ 128 →
        (∀ x ∈ s.sightings, x.holders ≠ [] → x ∈ rest) →
        t.sightings = { cls := id.cls, serial := id.serial, lastOdo := none, holders := [p] } :: rest → CacheOk t := by
      intro rest hrest hlen hkept ht
      refine ⟨?_, fun x hx q hq => ?_, fun q id' hid => ?_, by rw [ht]; exact hlen⟩
      · rw [ht, List.map_cons, List.nodup_cons]
        refine ⟨fun hm => ?_, (hrest.map _).nodup h.sightedOnce⟩
        obtain ⟨x, hx, hk⟩ := List.mem_map.1 hm
        exact unlike x (hrest.subset hx) hk
      · rw [ht] at hx
        rcases List.mem_cons.1 hx with rfl | hx
        · rw [List.mem_singleton.1 hq]
          exact ⟨id, hp, rfl, rfl⟩
        · have hx := hrest.subset hx
          rw [hr q (apart hx hq)]
          exact h.holders x hx q hq
      · rw [ht]
        by_cases hqp : q = p
        · exact ⟨_, List.mem_cons_self, by simp [hqp]⟩
        · rw [hr q hqp] at hid
          obtain ⟨x, hx, hq⟩ := h.sighted q id' hid
          exact ⟨x, List.mem_cons_of_mem _ (hkept x hx (List.ne_nil_of_mem hq)), hq⟩
    split at hs
    · next hroom => exact key _ (List.Sublist.refl _) hroom (fun _ hx _ => hx) hs
    · next hfull =>
      rcases evict_cases s.sightings with ⟨-, hheld⟩ | ⟨a, e, b, hl, he, -, hev⟩
      · have := h.held_le hheld
        simp only [Config.sightingCapacity] at hfull
        omega
      · rw [hev] at hs
        have hfits := h.cacheFits
        refine key (a ++ b) ?_ ?_ (fun x hx hne => ?_) hs
        · rw [hl]
          exact List.Sublist.append_left (List.sublist_cons_self e b) a
        · rw [hl] at hfits
          simpa [Nat.add_assoc] using hfits
        · rw [hl, mem_cut] at hx
          rcases hx with rfl | hx
          · exact absurd he hne
          · exact hx

end CacheOk

end Sys2Proof.Machine
end

section
/-! PROOFS. The order of positions, queue, records and sighting entries under the updates that the operations are made of, and
under the work of EVD and POS at positions. -/

namespace Sys2Proof.Machine

/-- A change of a runtime half that the order does not read. -/
def Unread (f : Runtime → Runtime) : Prop :=
  ∀ r, (f r).phase = r.phase ∧ (f r).identity = r.identity ∧ (f r).classIndex = r.classIndex ∧ (f r).latch = r.latch ∧
    (f r).verdict = r.verdict

namespace OrderlyBut

variable {loose loose' : Pos → Prop} {s t : State}

/-! ### Updates -/

theorem congr (h : OrderlyBut loose s) (hrun : t.run = s.run) (hrec : t.sch.records = s.sch.records)
    (hq : t.sch.queue = s.sch.queue) (hsight : t.sightings = s.sightings) (hconf : t.configs = s.configs)
    (hdev : t.device = s.device) (hlock : t.mgt.setupLock = s.mgt.setupLock) (hedits : t.mgt.edits = s.mgt.edits) :
    OrderlyBut loose t where
  sch := h.sch.congr hrec hq fun p _ => by rw [hrun]; exact .refl _
  atPos p hp := by
    rw [hrun, hconf, hdev]
    exact h.atPos p hp
  cache := h.cache.congr hsight fun p => by rw [hrun]
  locked := by rw [hdev, hlock]; exact h.locked
  edits := by rw [hedits]; exact h.edits

/-- A change of one runtime half: the scheduler has no work for the position or sees no change, the identity stands, and the
runtime half is in order unless it is left out. -/
theorem modRun (h : OrderlyBut loose s) {p : Pos} {f : Runtime → Runtime} (hid : (f s.run[p]).identity = s.run[p].identity)
    (hw : Unasked s p ∨ SameWork s.run[p] (f s.run[p]))
    (hlocal : ¬ loose' p → LocalOk s.configs[p] s.device (f s.run[p])) (hmono : ∀ q, q ≠ p → loose q → loose' q) :
    OrderlyBut loose' (modRun p f s) where
  sch := by
    refine h.sch.congr rfl rfl fun q hq => ?_
    by_cases hqp : q = p
    · subst hqp
      rw [modRun_self]
      exact hw.resolve_left hq
    · rw [modRun_other hqp]
      exact .refl _
  atPos q hq := by
    by_cases hqp : q = p
    · subst hqp
      rw [modRun_self]
      exact hlocal hq
    · rw [modRun_other hqp]
      exact h.atPos q fun hl => hq (hmono q hqp hl)
  cache := by
    refine h.cache.congr rfl fun q => ?_
    by_cases hqp : q = p
    · subst hqp
      rw [modRun_self]
      exact hid
    · rw [modRun_other hqp]
  locked := h.locked
  edits := h.edits

theorem modRun_unread (h : OrderlyBut loose s) {p : Pos} {f : Runtime → Runtime} (hf : Unread f) :
    OrderlyBut loose (Machine.modRun p f s) := by
  obtain ⟨hphase, hid, hcls, hlatch, hverdict⟩ := hf s.run[p]
  exact h.modRun hid (.inr ⟨hphase, fun hc => by rwa [hcls]⟩)
    (fun hp => (h.atPos p hp).congr hphase hid hcls hlatch hverdict) fun _ _ hq => hq

/-- Entries and records taken out. -/
theorem shrink (h : OrderlyBut loose s)
    (hrec : ∀ (i : RecNo) (r : Record), t.sch.records[i] = some r → ∃ r₀, s.sch.records[i] = some r₀ ∧
      r₀.tag = r.tag ∧ r₀.position = r.position ∧ r₀.query = r.query)
    (hq : t.sch.queue.Sublist s.sch.queue) (ht : t = { s with sch := t.sch }) : OrderlyBut loose t where
  sch := h.sch.shrink hrec hq fun p _ => by rw [ht]; exact .refl _
  atPos p hp := by
    rw [ht]
    exact h.atPos p hp
  cache := h.cache.congr (by rw [ht]) fun p => by rw [ht]
  locked := by rw [ht]; exact h.locked
  edits := by rw [ht]; exact h.edits

theorem setRecord (h : OrderlyBut loose s) {i : RecNo} {x : Option Record}
    (hx : ∀ r, x = some r → ∃ r₀, s.sch.records[i] = some r₀ ∧ r₀.tag = r.tag ∧ r₀.position = r.position ∧
      r₀.query = r.query) : OrderlyBut loose (setRecord i x s) := by
  refine h.shrink (fun j r hr => ?_) (List.Sublist.refl _) rfl
  by_cases hj : j = i
  · subst hj
    exact hx r (by simpa using hr)
  · exact ⟨r, by simpa [hj] using hr, rfl, rfl, rfl⟩

theorem freed (h : OrderlyBut loose s) (i : RecNo) : OrderlyBut loose (Machine.setRecord i none s) :=
  h.setRecord (by simp)

theorem freeRecordOf (h : OrderlyBut loose s) (p : Pos) : OrderlyBut loose (freeRecordOf p s) := by
  refine h.shrink (fun i r hr => ?_) (List.Sublist.refl _) rfl
  cases h₀ : s.sch.records[i] with
  | none => rw [freeRecordOf_free p s i h₀] at hr; cases hr
  | some r₀ =>
    rw [freeRecordOf_kept p s i r₀ h₀] at hr
    split at hr
    · cases hr
    · cases hr; exact ⟨_, rfl, rfl, rfl, rfl⟩

theorem addNotice (h : OrderlyBut loose s) (n : Notice) : OrderlyBut loose (addNotice n s) := by
  have w := addNotice_work n s
  exact h.congr (addNotice_run n s) (by rw [addNotice_sch]) (by rw [addNotice_sch]) (addNotice_sightings n s) w.configs w.device
    w.setupLock w.edits

theorem notifyChange (h : OrderlyBut loose s) (p : Pos) (before : Verdict) (reason : Reason) :
    OrderlyBut loose (notifyChange p before reason s) := by
  unfold Machine.notifyChange
  dsimp only
  split
  · exact h
  · exact h.addNotice _

/-- What a foldl of steps keeps. -/
theorem foldl {α : Type} {f : α → State → State} (hf : ∀ a s, OrderlyBut loose s → OrderlyBut loose (f a s)) (l : List α)
    (h : OrderlyBut loose s) : OrderlyBut loose (l.foldl (fun t a => f a t) s) := by
  induction l generalizing s with
  | nil => exact h
  | cons a l ih => exact ih (hf a s h)

/-! ### Requests -/

theorem unasked_of_not_asked {p : Pos} (he : hasEntry s p = false) (hr : hasRecord s p = false) : Unasked s p :=
  ⟨fun e hm hp => Bool.false_ne_true (he.symm.trans ((hasEntry_eq s p).2 ⟨e, hm, hp⟩)),
    fun i r hi hp => Bool.false_ne_true (hr.symm.trans ((hasRecord_eq s p).2 ⟨i, r, hi, hp⟩))⟩

/-- A request in the phase of its kind (R57). -/
theorem ask (h : OrderlyBut loose s) {p : Pos} {kind : RequestKind}
    (hphase : s.run[p].phase = if kind = .ident then .identifying else .challenging) (round : Option RoundKind) :
    OrderlyBut loose (ask p kind round s) := by
  unfold Machine.ask
  split
  · exact h
  · next hasked =>
    simp only [Bool.or_eq_true, not_or, Bool.not_eq_true] at hasked
    have hu := unasked_of_not_asked hasked.1 hasked.2
    have called := h.modRun_unread (p := p)
      (f := fun r => { r with pendingRequest := some kind, roundKind := round.getD r.roundKind })
      fun _ => ⟨rfl, rfl, rfl, rfl, rfl⟩
    refine ⟨?_, called.atPos, called.cache.congr rfl fun _ => rfl, called.locked, called.edits⟩
    refine called.sch.asked (p := p) (kind := kind) hu rfl rfl (fun q _ => .refl _) ?_
    dsimp only
    rw [modRun_self]
    exact hphase

/-- In HELD a position has neither entry nor record. -/
theorem unasked_held (h : OrderlyBut loose s) {p : Pos} (hp : s.run[p].phase = .held) : Unasked s p :=
  h.sch.unasked (by rw [hp]; decide) (by rw [hp]; decide)

/-- A position goes to CHALLENGING. -/
theorem challenging (h : OrderlyBut loose s) {p : Pos} (hl : ¬ loose p)
    (hp : s.run[p].phase = .challenging ∨ s.run[p].phase = .held) :
    OrderlyBut loose (Machine.modRun p (fun r => { r with phase := .challenging, sweepAge := 0 }) s) := by
  have lo := h.atPos p hl
  refine h.modRun rfl ?_ (fun _ => lo.goesOn (by tauto) (fun _ => .inl rfl) lo.unidentified lo.latched lo.revoked)
    fun _ _ hq => hq
  rcases hp with hp | hp
  · exact .inr ⟨hp.symm, id⟩
  · exact .inl (h.unasked_held hp)

theorem callDue (h : OrderlyBut loose s) {p : Pos} (hl : ¬ loose p)
    (hp : s.run[p].phase = .challenging ∨ s.run[p].phase = .held) (round : RoundKind) :
    OrderlyBut loose (callDue p round s) :=
  (h.challenging hl hp).ask (by rw [modRun_self]; rfl) _

theorem callNew (h : OrderlyBut loose s) {p : Pos} (hl : ¬ loose p)
    (hp : s.run[p].phase = .challenging ∨ s.run[p].phase = .held) : OrderlyBut loose (callNew p s) :=
  (h.challenging hl hp).ask (by rw [modRun_self]; rfl) _

/-! ### Evidence -/

theorem nextVerdict_revoked {e : ClassEntry} {c : Int} {v : Verdict} (h : nextVerdict e c v = .revoked) : v = .revoked := by
  unfold nextVerdict at h
  split at h
  · split at h
    · cases h
    · split at h <;> cases h
  · split at h
    · cases h
    · split at h <;> cases h
  · split at h
    · cases h
    · split at h <;> cases h
  · split at h
    · cases h
    · split at h <;> cases h
  · rfl

theorem evaluate (h : OrderlyBut loose s) {p : Pos} (hl : ¬ loose p) (reason : Reason) :
    OrderlyBut loose (evaluate p reason s) := by
  have lo := h.atPos p hl
  unfold Machine.evaluate
  dsimp only
  split
  · exact h
  · next e _ =>
    split
    · exact h
    · next hchange =>
      simp only [not_or, Bool.not_eq_true] at hchange
      obtain ⟨hlatch, hverdict⟩ := hchange
      have judged : OrderlyBut loose (Machine.modRun p (fun x => { x with
          verdict := nextVerdict e s.run[p].score s.run[p].verdict, reason := some reason }) s) := by
        refine h.modRun rfl (.inr ⟨rfl, id⟩) (fun _ => ?_) fun _ _ hq => hq
        refine ⟨lo.seated, lo.unidentified, fun hx => ?_, fun hx => ?_, lo.disabled, lo.starting⟩
        · rw [show s.run[p].latch = true from hx] at hlatch; cases hlatch
        · exact absurd (hx.trans (nextVerdict_revoked hx).symm) hverdict
      have reported := judged.notifyChange p s.run[p].verdict reason
      split
      · next hheld =>
        refine reported.callDue hl (.inr ?_) .due
        rw [notifyChange_run, modRun_self]
        exact hheld.1
      · exact reported

theorem addEvidence (h : OrderlyBut loose s) (p : Pos) (w : Int) : OrderlyBut loose (addEvidence p w s) :=
  h.modRun_unread fun _ => ⟨rfl, rfl, rfl, rfl, rfl⟩

/-- An identified part is forced to COUNTERFEIT or REVOKED (R46). -/
theorem force (h : OrderlyBut loose s) {p : Pos} (hl : ¬ loose p) (hid : s.run[p].identity ≠ none) {v : Verdict}
    (hv : v = .counterfeit ∨ v = .revoked) (reason : Reason) : OrderlyBut loose (force p v reason s) := by
  have lo := h.atPos p hl
  refine notifyChange (h.modRun rfl (.inr ⟨rfl, id⟩) (fun _ => ?_) fun _ _ hq => hq) _ _ _
  exact ⟨lo.seated, fun hn => absurd hn hid, fun _ => hv, fun _ => rfl, lo.disabled, lo.starting⟩

theorem duplicateHolder (h : OrderlyBut loose s) {q : Pos} (hl : ¬ loose q) : OrderlyBut loose (duplicateHolder q s) := by
  unfold Machine.duplicateHolder
  split
  · exact h
  · exact (h.addEvidence q _).evaluate hl _

theorem advanceSweep (h : OrderlyBut loose s) (p : Pos) : OrderlyBut loose (advanceSweep p s) := by
  unfold Machine.advanceSweep
  dsimp only
  split
  · exact h.modRun_unread fun _ => ⟨rfl, rfl, rfl, rfl, rfl⟩
  · exact h

theorem advanceDecay (h : OrderlyBut loose s) {p : Pos} (hl : ¬ loose p) : OrderlyBut loose (advanceDecay p s) := by
  unfold Machine.advanceDecay
  dsimp only
  split
  · split
    · exact h
    · split
      · refine evaluate (h.modRun_unread ?_) hl _
        exact fun _ => ⟨rfl, rfl, rfl, rfl, rfl⟩
      · exact h.modRun_unread fun _ => ⟨rfl, rfl, rfl, rfl, rfl⟩
  · exact h

theorem recordOdometer (h : OrderlyBut loose s) (p : Pos) (e : ClassEntry) (o : Word32) :
    OrderlyBut loose (recordOdometer p e o s) := by
  have recorded : OrderlyBut loose (recordSighting p o s) :=
    { sch := h.sch.congr rfl rfl fun _ _ => .refl _
      atPos := h.atPos
      cache := h.cache.recorded (p := p) (f := fun e => { e with lastOdo := some (raiseOdo o e.lastOdo) })
        (fun _ => ⟨rfl, rfl⟩) rfl fun _ => rfl
      locked := h.locked
      edits := h.edits }
  exact recorded.modRun_unread fun _ => ⟨rfl, rfl, rfl, rfl, rfl⟩

/-! ### The end of a position's work -/

/-- A queue without the entries of a position. -/
theorem withoutEntries (h : OrderlyBut loose s) (p : Pos) :
    OrderlyBut loose { s with sch := { s.sch with queue := s.sch.queue.filter (fun e => e.position != p) } } :=
  h.shrink (fun _ r hr => ⟨r, hr, rfl, rfl, rfl⟩) List.filter_sublist rfl

theorem abandon (h : OrderlyBut loose s) (p : Pos) : OrderlyBut loose (abandon p s) :=
  ((h.freeRecordOf p).modRun_unread (p := p) (f := fun r => { r with pendingRequest := none, remaining := 0 })
    fun _ => ⟨rfl, rfl, rfl, rfl, rfl⟩).withoutEntries p

theorem freeRecordOf_noRecord (p : Pos) (s : State) (i : RecNo) (r : Record)
    (h : (Machine.freeRecordOf p s).sch.records[i] = some r) : r.position ≠ p := by
  cases h₀ : s.sch.records[i] with
  | none => rw [freeRecordOf_free p s i h₀] at h; cases h
  | some r₀ =>
    rw [freeRecordOf_kept p s i r₀ h₀] at h
    split at h
    · cases h
    · cases h; assumption

theorem abandon_unasked (p : Pos) (s : State) : Unasked (Machine.abandon p s) p := by
  refine ⟨fun e he => ?_, freeRecordOf_noRecord p s⟩
  simpa using (List.mem_filter.1 he).2

theorem abandon_run_self (p : Pos) (s : State) :
    (Machine.abandon p s).run[p] = { s.run[p] with pendingRequest := none, remaining := 0 } :=
  modRun_self p (fun r => { r with pendingRequest := none, remaining := 0 }) (Machine.freeRecordOf p s)

/-- The end of a round of a position without a queue entry (R60). -/
theorem endRound (h : OrderlyBut loose s) {p : Pos} (hl : ¬ loose p) (hp : s.run[p].phase = .challenging)
    (hq : ∀ e ∈ s.sch.queue, e.position ≠ p) : OrderlyBut loose (endRound p s) := by
  have lo := h.atPos p hl
  refine (h.freeRecordOf p).modRun rfl (.inl ⟨hq, freeRecordOf_noRecord p s⟩) (fun _ => ?_) fun _ _ hq => hq
  exact lo.goesOn (.inl hp) (fun _ => .inr rfl) lo.unidentified lo.latched lo.revoked

/-- Removal, loss and disable processing leaves the position in order, if it was left out or not. -/
theorem removePart (h : OrderlyBut loose s) {p : Pos} {phase : Phase} (hc : s.configs[p].enabled = false → phase = .disabled)
    (hd : s.device = .starting → phase = .disabled ∨ phase = .vacant) (hmono : ∀ q, q ≠ p → loose q → loose' q)
    (reason : Reason) : OrderlyBut loose' (removePart reason phase p s) := by
  obtain ⟨hrun, hsch, hsight⟩ := removePart_parts reason phase p s
  have w := removePart_work reason phase p s
  have self : (Machine.removePart reason phase p s).run[p] = { Runtime.cleared phase with reason := some reason } := by
    rw [hrun, modRun_self]
  have other {q : Pos} (hq : q ≠ p) : (Machine.removePart reason phase p s).run[q] = s.run[q] := by
    rw [hrun, modRun_other hq]
    exact (abandon_at p s).others q hq
  have hrec : (Machine.removePart reason phase p s).sch = (Machine.abandon p s).sch := by rw [hsch]; rfl
  refine ⟨?_, fun q hq => ?_, ?_, ?_, ?_⟩
  · refine (h.abandon p).sch.congr (by rw [hrec]) (by rw [hrec]) fun q hq => ?_
    have hqp : q ≠ p := fun e => hq (e ▸ abandon_unasked p s)
    rw [other hqp, (abandon_at p s).others q hqp]
    exact .refl _
  · rw [w.configs, w.device]
    by_cases hqp : q = p
    · subst hqp
      rw [self]
      exact .cleared hc hd
    · rw [other hqp]
      exact h.atPos q fun hx => hq (hmono q hqp hx)
  · refine h.cache.left (p := p) (by rw [hsight]; rfl) (by rw [self]; rfl) fun q hq => by rw [other hq]
  · rw [w.device, w.setupLock]
    exact h.locked
  · rw [w.edits]
    exact h.edits

end OrderlyBut

end Sys2Proof.Machine
end

section
/-! PROOFS. The order of positions, queue, records and sighting entries under every operation, and the obligation that every
step keeps it with the scores and the queues in bounds (O57). -/

namespace Sys2Proof.Machine

namespace OrderlyBut

variable {s t : State}

/-! ### Positions without a part -/

/-- A runtime half that holds no identity and has no work goes to another phase, in RUNNING and where it is not DISABLED. -/
theorem rephase (h : OrderlyBut nowhere s) {p : Pos} {f : Runtime → Runtime} (hd : s.device = .running)
    (hp : s.run[p].phase = .vacant ∨ s.run[p].phase = .settling ∨ s.run[p].phase = .lost)
    (hf : (f s.run[p]).identity = s.run[p].identity ∧ (f s.run[p]).classIndex = s.run[p].classIndex ∧
      (f s.run[p]).latch = s.run[p].latch ∧ (f s.run[p]).verdict = s.run[p].verdict) :
    OrderlyBut nowhere (Machine.modRun p f s) := by
  obtain ⟨hid, hcls, hlatch, hverdict⟩ := hf
  have lo := h.localOk p
  have unidentified : s.run[p].identity = none := by
    by_contra hn
    rcases lo.seated hn with h' | h' <;> rcases hp with hp | hp | hp <;> rw [hp] at h' <;> cases h'
  have enabled : s.configs[p].enabled = true := lo.enabled (by rcases hp with hp | hp | hp <;> rw [hp] <;> decide)
  have free : Unasked s p := h.sch.unasked (by rcases hp with hp | hp | hp <;> rw [hp] <;> decide)
    (by rcases hp with hp | hp | hp <;> rw [hp] <;> decide)
  refine h.modRun hid (.inl free) (fun _ => ⟨fun hn => ?_, fun _ => ?_, ?_, ?_, fun hc => ?_, fun hs => ?_⟩) fun _ _ hq => hq
  · rw [hid] at hn
    exact absurd unidentified hn
  · rw [hcls, hlatch]
    exact lo.unidentified unidentified
  · rw [hlatch, hverdict]
    exact lo.latched
  · rw [hlatch, hverdict]
    exact lo.revoked
  · rw [enabled] at hc
    cases hc
  · rw [hd] at hs
    cases hs

theorem completeSettling (h : OrderlyBut nowhere s) {p : Pos} (hd : s.device = .running) (hp : s.run[p].phase = .settling)
    (counter : BitVec 16) : OrderlyBut nowhere (completeSettling p counter s) :=
  ask (h.rephase hd (.inr (.inl hp)) ⟨rfl, rfl, rfl, rfl⟩) (by rw [modRun_self]; rfl) _

theorem settlePresent (h : OrderlyBut nowhere s) {p : Pos} (hd : s.device = .running) (hp : s.run[p].phase = .settling)
    (bits : BitVec 14) (counter : BitVec 16) : OrderlyBut nowhere (settlePresent p bits counter s) := by
  unfold Machine.settlePresent
  split
  · split
    · exact h.completeSettling hd hp counter
    · exact h.modRun_unread fun _ => ⟨rfl, rfl, rfl, rfl, rfl⟩
  · exact h.modRun_unread fun _ => ⟨rfl, rfl, rfl, rfl, rfl⟩

theorem enterSettling (h : OrderlyBut nowhere s) {p : Pos} (hd : s.device = .running)
    (hp : s.run[p].phase = .vacant ∨ s.run[p].phase = .lost) (bits : BitVec 14) (counter : BitVec 16) :
    OrderlyBut nowhere (enterSettling p bits counter s) := by
  refine settlePresent (h.rephase hd (by tauto) ⟨rfl, rfl, rfl, rfl⟩) hd ?_ bits counter
  rw [modRun_self]

/-- A part goes in RUNNING: its position is not DISABLED, so any phase is one of its own. -/
theorem partGone (h : OrderlyBut nowhere s) {p : Pos} (hd : s.device = .running) (hp : s.run[p].phase ≠ .disabled)
    (phase : Phase) (reason : Reason) : OrderlyBut nowhere (Machine.removePart reason phase p s) := by
  refine h.removePart (fun hc => ?_) (fun hs => ?_) (fun _ _ hq => hq) reason
  · rw [(h.localOk p).enabled hp] at hc
    cases hc
  · rw [hd] at hs
    cases hs

theorem losePart (h : OrderlyBut nowhere s) {p : Pos} (hd : s.device = .running) (hp : s.run[p].phase ≠ .disabled) :
    OrderlyBut nowhere (losePart p s) := by
  unfold Machine.losePart
  split
  · next hv => exact h.rephase hd (.inl hv) ⟨rfl, rfl, rfl, rfl⟩
  · exact h.partGone hd hp _ _

theorem missInput (h : OrderlyBut nowhere s) {p : Pos} (hd : s.device = .running) (hp : s.run[p].phase ≠ .disabled) :
    OrderlyBut nowhere (missInput p s) := by
  unfold Machine.missInput
  split
  · exact h.losePart hd hp
  · exact h.modRun_unread fun _ => ⟨rfl, rfl, rfl, rfl, rfl⟩

theorem seatedInput (h : OrderlyBut nowhere s) {p : Pos} (hd : s.device = .running) (hp : s.run[p].phase ≠ .disabled)
    (i : Input) : OrderlyBut nowhere (seatedInput p i s) := by
  unfold Machine.seatedInput
  split
  · exact h.modRun_unread fun _ => ⟨rfl, rfl, rfl, rfl, rfl⟩
  · exact h.partGone hd hp _ _
  · exact h.missInput hd hp

theorem handleInput (h : OrderlyBut nowhere s) {p : Pos} (hd : s.device = .running) (i : Input) :
    OrderlyBut nowhere (handleInput p i s) := by
  unfold Machine.handleInput
  split
  · exact h
  · next hp =>
    have hne : s.run[p].phase ≠ .disabled := by rw [hp]; decide
    split
    · exact h.enterSettling hd (.inl hp) _ _
    · exact h.modRun_unread fun _ => ⟨rfl, rfl, rfl, rfl, rfl⟩
    · exact h.missInput hd hne
  · next hp =>
    have hne : s.run[p].phase ≠ .disabled := by rw [hp]; decide
    split
    · exact h.settlePresent hd hp _ _
    · exact h.partGone hd hne _ _
    · exact h.missInput hd hne
  · next hp => exact h.seatedInput hd (by rw [hp]; decide) i
  · next hp => exact h.seatedInput hd (by rw [hp]; decide) i
  · next hp => exact h.seatedInput hd (by rw [hp]; decide) i
  · next hp =>
    split
    · exact h.enterSettling hd (.inr hp) _ _
    · exact h.rephase hd (.inr (.inr hp)) ⟨rfl, rfl, rfl, rfl⟩
    · exact h

/-! ### Transactions -/

/-- A record's position has no queue entry, and no other record. -/
theorem unasked_freed (h : OrderlyBut nowhere s) {i : RecNo} {rec : Record} (hr : s.sch.records[i] = some rec) :
    Unasked (Machine.setRecord i none s) rec.position := by
  refine ⟨fun e he hp => (h.sch.queued e he).2 i rec hr hp.symm, fun j r hj hp => ?_⟩
  by_cases hji : j = i
  · subst hji
    simp at hj
  · have hj : s.sch.records[j] = some r := by simpa [hji] using hj
    exact hji (h.sch.records.apart j i r rec hj hr (.inr hp))

/-- A part in CHALLENGING whose transaction is over is judged: no request of its position waits. -/
structure Answering (p : Pos) (s : State) : Prop where
  order : OrderlyBut nowhere s
  phase : s.run[p].phase = .challenging
  noEntry : ∀ e ∈ s.sch.queue, e.position ≠ p

theorem Answering.ended {p : Pos} (h : Answering p s) : OrderlyBut nowhere (Machine.endRound p s) :=
  h.order.endRound id h.phase h.noEntry

theorem Answering.modRun_unread {p : Pos} (h : Answering p s) {f : Runtime → Runtime} (hf : Unread f) :
    Answering p (Machine.modRun p f s) :=
  ⟨h.order.modRun_unread hf, by rw [modRun_self, (hf _).1]; exact h.phase, h.noEntry⟩

theorem notifyChange_run_at (p q : Pos) (before : Verdict) (reason : Reason) (s : State) :
    (Machine.notifyChange p before reason s).run[q] = s.run[q] := congrArg (fun run => run[q]) (notifyChange_run p before reason s)

/-- Evaluating a position that is not HELD calls no round. -/
theorem evaluate_unheld {p : Pos} (hp : s.run[p].phase ≠ .held) (reason : Reason) :
    (Machine.evaluate p reason s).sch = s.sch ∧ (Machine.evaluate p reason s).run[p].phase = s.run[p].phase := by
  unfold Machine.evaluate
  dsimp only
  split
  · exact ⟨rfl, rfl⟩
  · split
    · exact ⟨rfl, rfl⟩
    · split
      · next h => exact absurd h.1 hp
      · refine ⟨notifyChange_sch _ _ _ _, ?_⟩
        rw [notifyChange_run_at, modRun_self]

theorem Answering.evaluate {p : Pos} (h : Answering p s) (reason : Reason) : Answering p (Machine.evaluate p reason s) := by
  obtain ⟨hsch, hphase⟩ := evaluate_unheld (s := s) (p := p) (by rw [h.phase]; decide) reason
  exact ⟨h.order.evaluate id reason, hphase.trans h.phase, by rw [hsch]; exact h.noEntry⟩

theorem Answering.force {p : Pos} (h : Answering p s) (hid : s.run[p].identity ≠ none) (reason : Reason) :
    Answering p (Machine.force p .counterfeit reason s) := by
  refine ⟨h.order.force id hid (.inl rfl) reason, ?_, by rw [force_sch]; exact h.noEntry⟩
  unfold Machine.force
  rw [notifyChange_run_at, modRun_self]
  exact h.phase

theorem Answering.addEvidence {p : Pos} (h : Answering p s) (w : Int) : Answering p (Machine.addEvidence p w s) :=
  h.modRun_unread fun _ => ⟨rfl, rfl, rfl, rfl, rfl⟩

theorem Answering.recordOdometer {p : Pos} (h : Answering p s) (e : ClassEntry) (o : Word32) :
    Answering p (Machine.recordOdometer p e o s) := by
  refine ⟨h.order.recordOdometer p e o, ?_, h.noEntry⟩
  unfold Machine.recordOdometer
  rw [modRun_self]
  exact h.phase

theorem addEvidence_identity (p : Pos) (w : Int) (s : State) :
    (Machine.addEvidence p w s).run[p].identity = s.run[p].identity := by
  unfold Machine.addEvidence
  rw [modRun_self]

theorem Answering.failAnswer {p : Pos} (h : Answering p s) (hid : s.run[p].identity ≠ none) (e : ClassEntry) :
    Answering p (Machine.failAnswer p e s) := by
  unfold Machine.failAnswer
  dsimp only
  split
  · exact (h.addEvidence _).force (by rwa [addEvidence_identity]) _
  · exact (h.addEvidence _).evaluate _

theorem Answering.passAnswer {p : Pos} (h : Answering p s) (hid : s.run[p].identity ≠ none) (e : ClassEntry) (o : Word32) :
    Answering p (Machine.passAnswer p e o s) := by
  have passed := h.addEvidence e.wPass
  unfold Machine.passAnswer
  dsimp only
  split
  · have ruined := passed.modRun_unread (f := fun r => { r with score := -1000, decayCount := 0 })
      fun _ => ⟨rfl, rfl, rfl, rfl, rfl⟩
    refine ruined.force ?_ _
    rw [modRun_self]
    exact (addEvidence_identity p _ s).trans_ne hid
  · refine ((Answering.modRun_unread passed ?_).recordOdometer e o).evaluate _
    exact fun _ => ⟨rfl, rfl, rfl, rfl, rfl⟩
  · exact ((passed.addEvidence _).recordOdometer e o).evaluate _

/-- A challenge's position, its record freed. -/
theorem answering (h : OrderlyBut nowhere s) {i : RecNo} {rec : Record} {nonce : Nonce} {slot : SlotNo}
    (hr : s.sch.records[i] = some rec) (hq : rec.query = .challenge nonce slot) :
    Answering rec.position (Machine.setRecord i none s) :=
  ⟨h.freed i, (h.sch.challenged i rec nonce slot hr hq).1, (h.unasked_freed hr).1⟩

theorem verify (h : OrderlyBut nowhere s) {i : RecNo} {rec : Record} {nonce : Nonce} {slot : SlotNo}
    (hr : s.sch.records[i] = some rec) (hq : rec.query = .challenge nonce slot) (odo response : Word32) :
    OrderlyBut nowhere (verify i rec nonce slot odo response s) := by
  have a := h.answering hr hq
  have missing : OrderlyBut nowhere (latchKeyMissing (Machine.endRound rec.position
      (Machine.modRun rec.position (fun r => { r with keyMissing := true }) (Machine.setRecord i none s)))) := by
    refine congr (Answering.ended (a.modRun_unread ?_)) rfl rfl rfl rfl rfl rfl rfl rfl
    exact fun _ => ⟨rfl, rfl, rfl, rfl, rfl⟩
  unfold Machine.verify
  dsimp only
  split
  · exact missing
  · exact missing
  · have cleared := a.modRun_unread (f := fun r => { r with keyMissing := false }) fun _ => ⟨rfl, rfl, rfl, rfl, rfl⟩
    generalize Machine.modRun rec.position (fun r => { r with keyMissing := false }) (Machine.setRecord i none s) = u
      at cleared ⊢
    split
    · next id e hid _ =>
      have hid : u.run[rec.position].identity ≠ none := by rw [hid]; exact Option.some_ne_none _
      split
      · split
        · exact (cleared.passAnswer hid _ _).ended
        · exact (cleared.passAnswer hid _ _).order
      · split
        · exact (cleared.failAnswer hid _).ended
        · exact (cleared.failAnswer hid _).order
    · exact cleared.ended
    · exact cleared.ended
    · exact cleared.ended

theorem noTagOutcome (h : OrderlyBut nowhere s) {p : Pos} (hp : s.run[p].phase = .identifying) (hu : Unasked s p) :
    OrderlyBut nowhere (noTagOutcome p s) := by
  have lo := h.localOk p
  have hid : s.run[p].identity = none := by
    by_contra hn
    rcases lo.seated hn with h' | h' <;> rw [hp] at h' <;> cases h'
  have hlatch := (lo.unidentified hid).2
  refine notifyChange (h.modRun hid.symm (.inl hu) (fun _ => ?_) fun _ _ hq => hq) _ _ _
  refine lo.goesOn (.inr (.inr hp)) (fun hn => absurd rfl hn) (fun _ => ⟨rfl, hlatch⟩) (fun hl => ?_) (fun hv => by cases hv)
  rw [show s.run[p].latch = true from hl] at hlatch
  cases hlatch

theorem expire (h : OrderlyBut nowhere s) {i : RecNo} {rec : Record} (hr : s.sch.records[i] = some rec) :
    OrderlyBut nowhere (expire i rec s) := by
  unfold Machine.expire
  split
  · exact h.setRecord fun r hx => ⟨rec, hr, by cases hx; exact ⟨rfl, rfl, rfl⟩⟩
  · split
    · next hq => exact (h.freed i).noTagOutcome (h.sch.identified i rec hr hq) (h.unasked_freed hr)
    · next hq =>
      have a := h.answering hr hq
      unfold Machine.noAnswer
      split
      · exact a.ended
      · exact ((a.addEvidence _).evaluate _).ended

theorem eraseRecord (h : OrderlyBut nowhere s) (page : Fin 4) (i : RecNo) : OrderlyBut nowhere (eraseRecord page i s) := by
  unfold Machine.eraseRecord
  split
  · exact h
  · next rec hr =>
    split
    · next hc =>
      unfold capturedIn at hc
      split at hc
      · cases hc
      · next hq =>
        refine Answering.ended ((h.answering hr hq).modRun_unread ?_)
        exact fun _ => ⟨rfl, rfl, rfl, rfl, rfl⟩
    · exact h

/-! ### Identification (R17 to R19) -/

/-- A position at identification, after its sighting step: it alone is left out of the order, has neither entry nor record, and
its runtime half holds an identity. -/
structure Identifying (p : Pos) (r : Runtime) (s : State) : Prop where
  order : OrderlyBut (fun q => q = p) s
  unasked : Unasked s p
  enabled : s.configs[p].enabled = true
  running : s.device = .running
  half : s.run[p] = r
  identity : r.identity ≠ none

namespace Identifying

variable {p : Pos} {r : Runtime}

/-- Work at another position. -/
theorem other {q : Pos} (h : Identifying p r s) (ht : OrderlyBut (fun q => q = p) t) (hq : p ≠ q) (w : WorkAt q s t) :
    Identifying p r t := by
  have same := SameAt.of_work w hq
  exact ⟨ht, unasked_of_not_asked (same.entry.trans (hasEntry_of_unasked s p h.unasked))
      (same.record.trans (hasRecord_of_unasked s p h.unasked)), by rw [same.config]; exact h.enabled,
    by rw [w.device]; exact h.running, by rw [same.run]; exact h.half, h.identity⟩

theorem modRun (h : Identifying p r s) {f : Runtime → Runtime} (hid : (f r).identity = r.identity) :
    Identifying p (f r) (Machine.modRun p f s) := by
  obtain ⟨order, unasked, enabled, running, rfl, identity⟩ := h
  exact ⟨order.modRun hid (.inl unasked) (fun hp => absurd rfl hp) fun _ _ hq => hq, unasked, enabled, running,
    modRun_self p f s, by rwa [hid]⟩

theorem notifyChange (h : Identifying p r s) (before : Verdict) (reason : Reason) :
    Identifying p r (Machine.notifyChange p before reason s) := by
  have w := notifyChange_at p p before reason s
  have hsch := notifyChange_sch p before reason s
  exact ⟨h.order.notifyChange p before reason, by unfold Unasked; rw [hsch]; exact h.unasked, by rw [w.configs]; exact h.enabled,
    by rw [w.device]; exact h.running, by rw [notifyChange_run_at]; exact h.half, h.identity⟩

/-- The end of an identification: the position is CHALLENGING or HELD, and the latch stands as the verdict asks. -/
theorem done (h : Identifying p r s) (hp : r.phase = .challenging ∨ r.phase = .held)
    (hl : r.latch = true → r.verdict = .counterfeit ∨ r.verdict = .revoked) (hv : r.verdict = .revoked → r.latch = true) :
    OrderlyBut nowhere s := by
  refine ⟨h.order.sch, fun q _ => ?_, h.order.cache, h.order.locked, h.order.edits⟩
  by_cases hq : q = p
  · subst hq
    rw [h.half, h.running]
    refine ⟨fun _ => hp, fun hn => absurd hn h.identity, hl, hv, fun hc => ?_, fun hs => by cases hs⟩
    rw [h.enabled] at hc
    cases hc
  · exact h.order.atPos q hq

/-- The end with a NEW round. -/
theorem callNew (h : Identifying p r s) (hl : r.latch = false) (hv : r.verdict ≠ .revoked) :
    OrderlyBut nowhere (Machine.callNew p s) := by
  have called := h.modRun (f := fun r => { r with phase := .challenging, sweepAge := 0 }) rfl
  refine (called.done (.inl rfl) (fun h => ?_) fun h => absurd h hv).ask (by rw [modRun_self]; rfl) _
  rw [show r.latch = true from h] at hl
  cases hl

theorem revoked (h : Identifying p r s) (id : Identity) : OrderlyBut nowhere (revokeAtIdentification p id s) := by
  unfold revokeAtIdentification Machine.force
  refine done (((h.modRun ?_).modRun ?_).notifyChange _ _ |>.modRun ?_) (.inr rfl) (fun _ => .inr rfl) fun _ => rfl
  all_goals rfl

theorem unknown (h : Identifying p r s) (hl : r.latch = false) : OrderlyBut nowhere (classUnknown p s) := by
  unfold classUnknown
  refine done ((h.modRun ?_).notifyChange _ _) (.inr rfl) (fun h => ?_) fun h => by cases h
  · rfl
  · rw [show r.latch = true from h] at hl
    cases hl

theorem known (h : Identifying p r s) (hl : r.latch = false) (i : ClassIdx) : OrderlyBut nowhere (classKnown p i s) := by
  unfold classKnown
  refine callNew (h.modRun ?_) hl fun h => by cases h
  rfl

theorem knownDuplicate (h : Identifying p r s) (hl : r.latch = false) (i : ClassIdx) :
    OrderlyBut nowhere (classKnownDuplicate p i s) := by
  unfold classKnownDuplicate
  dsimp only
  have judged := h.modRun (f := fun r => { r with
    classIndex := some i, score := addScore 0 s.mgt.classes[i].wDup, decayCount := 0,
    verdict := nextVerdict s.mgt.classes[i] (addScore 0 s.mgt.classes[i].wDup) .undecided, reason := some .duplicate }) rfl
  have unrevoked : nextVerdict s.mgt.classes[i] (addScore 0 s.mgt.classes[i].wDup) .undecided ≠ .revoked := fun h => by
    cases nextVerdict_revoked h
  split
  · exact judged.callNew hl unrevoked
  · exact (judged.notifyChange _ _).callNew hl unrevoked

theorem class_step (h : Identifying p r s) (hl : r.latch = false) (id : Identity) (duplicate : Bool) :
    OrderlyBut nowhere (classStep p id duplicate s) := by
  unfold classStep
  split
  · exact h.unknown hl
  · split
    · exact h.knownDuplicate hl _
    · exact h.known hl _

end Identifying

theorem duplicateHolder_at (q : Pos) (s : State) : WorkAt q s (Machine.duplicateHolder q s) := by
  unfold Machine.duplicateHolder
  split
  · exact .refl q s
  · exact (addEvidence_at q _ s).trans (evaluate_at q _ _)

theorem sightingStep (h : OrderlyBut nowhere s) {p : Pos} (hp : s.run[p].phase = .identifying) (hu : Unasked s p)
    (id : Identity) : Identifying p { s.run[p] with identity := some id } (sightingStep p id s) ∧ s.run[p].latch = false := by
  have lo := h.localOk p
  have hnone : s.run[p].identity = none := by
    by_contra hn
    rcases lo.seated hn with h' | h' <;> rw [hp] at h' <;> cases h'
  have self := modRun_self p (fun r => { r with identity := some id }) s
  have joined : Identifying p { s.run[p] with identity := some id }
      { Machine.modRun p (fun r => { r with identity := some id }) s with
        sightings := sight p id.cls id.serial s.sightings } := by
    refine ⟨⟨?_, fun q hq => ?_, ?_, h.locked, h.edits⟩, hu, lo.enabled (by rw [hp]; decide),
      lo.runs (by rw [hp]; decide) (by rw [hp]; decide), self, Option.some_ne_none id⟩
    · refine h.sch.congr rfl rfl fun q hq => ?_
      have hqp : q ≠ p := fun e => hq (by rw [e]; exact hu)
      rw [show (Machine.modRun p _ s).run[q] = _ from modRun_other hqp _ s]
      exact .refl _
    · rw [show (Machine.modRun p _ s).run[q] = _ from modRun_other hq _ s]
      exact h.atPos q not_false
    · exact h.cache.joined rfl hnone (congrArg Runtime.identity self) fun q hq =>
        congrArg Runtime.identity (modRun_other hq (fun r => { r with identity := some id }) s)
  have step : ∀ (l : List Pos), (∀ q ∈ l, q ≠ p) → ∀ u, Identifying p { s.run[p] with identity := some id } u →
      Identifying p { s.run[p] with identity := some id } (l.foldl (fun t q => Machine.duplicateHolder q t) u) := by
    intro l
    induction l with
    | nil => exact fun _ _ hu => hu
    | cons q l ih =>
      intro hl u hu
      have hq := hl q List.mem_cons_self
      exact ih (fun x hx => hl x (List.mem_cons_of_mem _ hx)) _
        (hu.other (hu.order.duplicateHolder hq) hq.symm (duplicateHolder_at q u))
  refine ⟨step _ (fun q hq => ?_) _ joined, (lo.unidentified hnone).2⟩
  unfold earlierHolders at hq
  split at hq
  · simpa using (List.mem_filter.1 hq).2
  · cases hq

theorem identify (h : OrderlyBut nowhere s) {p : Pos} (hp : s.run[p].phase = .identifying) (hu : Unasked s p) (id : Identity) :
    OrderlyBut nowhere (identify p id s) := by
  obtain ⟨seen, hlatch⟩ := h.sightingStep hp hu id
  unfold Machine.identify
  dsimp only
  split
  · exact seen.revoked id
  · exact seen.class_step hlatch id _

end OrderlyBut

end Sys2Proof.Machine
end

section
/-! PROOFS. The order of positions, queue, records and sighting entries under the application of a pending edit set. -/

namespace Sys2Proof.Machine

/-! ### Step 1: the entries (R166) -/

theorem replaceEntry_config_self (p : Pos) (c : PosConfig) (s : State) : (replaceEntry (.config p c) s).configs[p] = c := by
  simp [replaceEntry]

theorem replaceEntry_config_other {p q : Pos} (h : q ≠ p) (c : PosConfig) (s : State) :
    (replaceEntry (.config p c) s).configs[q] = s.configs[q] := by
  simp only [replaceEntry, Fin.getElem_fin]
  exact Vector.getElem_set_ne _ _ fun e => h (Fin.ext e.symm)

theorem replaceEntry_cls_self (i : ClassIdx) (e : ClassEntry) (s : State) : (replaceEntry (.cls i e) s).mgt.classes[i] = e := by
  simp [replaceEntry]

theorem replaceEntry_cls_other {i j : ClassIdx} (h : j ≠ i) (e : ClassEntry) (s : State) :
    (replaceEntry (.cls i e) s).mgt.classes[j] = s.mgt.classes[j] := by
  simp only [replaceEntry, Fin.getElem_fin]
  exact Vector.getElem_set_ne _ _ fun e => h (Fin.ext e.symm)

theorem EditsOnce.of_cons {x : EditItem} {items : List EditItem} (h : EditsOnce (x :: items)) :
    (∀ y ∈ items, y.entry ≠ x.entry) ∧ EditsOnce items := by
  obtain ⟨hx, hrest⟩ := List.nodup_cons.1 h
  exact ⟨fun y hy e => hx (List.mem_map.2 ⟨y, hy, e⟩), hrest⟩

/-- Each item replaces its entry, and no other item touches it. -/
theorem entriesReplaced {items : List EditItem} (h : EditsOnce items) (s : State) :
    EntriesReplaced items s (overItems replaceEntry items s) := by
  induction items generalizing s with
  | nil => exact ⟨by simp, fun _ _ => rfl, by simp, fun _ _ => rfl, rfl⟩
  | cons x items ih =>
    obtain ⟨hx, hrest⟩ := h.of_cons
    obtain ⟨config, configKept, cls, clsKept, frame⟩ := ih hrest (replaceEntry x s)
    rw [show overItems replaceEntry (x :: items) s = overItems replaceEntry items (replaceEntry x s) from rfl]
    generalize overItems replaceEntry items (replaceEntry x s) = t at config configKept cls clsKept frame ⊢
    refine ⟨fun p c hc => ?_, fun p hp => ?_, fun i e he => ?_, fun i hi => ?_, ?_⟩
    · rcases List.mem_cons.1 hc with rfl | hc
      · rw [configKept p fun c' hc' => hx _ hc' rfl]
        exact replaceEntry_config_self p c s
      · exact config p c hc
    · rw [configKept p fun c hc => hp c (List.mem_cons_of_mem _ hc)]
      cases x with
      | config q c => exact replaceEntry_config_other (by rintro rfl; exact hp c List.mem_cons_self) c s
      | cls j e => rfl
    · rcases List.mem_cons.1 he with rfl | he
      · rw [clsKept i fun e' he' => hx _ he' rfl]
        exact replaceEntry_cls_self i e s
      · exact cls i e he
    · rw [clsKept i fun e he => hi e (List.mem_cons_of_mem _ he)]
      cases x with
      | config q c => rfl
      | cls j e => exact replaceEntry_cls_other (by rintro rfl; exact hi e List.mem_cons_self) e s
    · rw [frame]
      cases x <;> rfl

namespace OrderlyBut

variable {loose : Pos → Prop} {s t : State}

theorem withEdits (h : OrderlyBut loose s) {l : List EditItem} (hl : EditsOnce l) :
    OrderlyBut loose { s with mgt := { s.mgt with edits := l } } where
  sch := h.sch.congr rfl rfl fun _ _ => .refl _
  atPos := h.atPos
  cache := h.cache.congr rfl fun _ => rfl
  locked := h.locked
  edits := hl

/-- What a foldl of steps keeps at each of the positions. -/
theorem serveAll {f : Pos → State → State} (hf : ∀ p s, OrderlyBut loose s → OrderlyBut loose (f p s))
    (h : OrderlyBut loose s) : OrderlyBut loose (Machine.serveAll f s) := h.foldl hf _

/-! ### Step 2: POS reacts (R4) -/

/-- Positions of POSITION-CONFIG items. -/
def Configures (items : List EditItem) (p : Pos) : Prop := ∃ c, EditItem.config p c ∈ items

/-- Before its reaction, a position of an item stands as the configuration before the application asks. -/
structure Reacting (old : Vector PosConfig 48) (items : List EditItem) (s : State) : Prop where
  order : OrderlyBut (Configures items) s
  before : ∀ p : Pos, Configures items p → LocalOk old[p] s.device s.run[p]
  active : ∀ (p : Pos) (c : PosConfig), .config p c ∈ items → s.configs[p] = c

theorem reacting (h : OrderlyBut nowhere s) :
    Reacting s.configs s.mgt.edits (overItems replaceEntry s.mgt.edits s) := by
  obtain ⟨config, configKept, -, -, frame⟩ := entriesReplaced h.edits s
  generalize overItems replaceEntry s.mgt.edits s = t at config configKept frame ⊢
  have hrun : t.run = s.run := by rw [frame]
  have hdev : t.device = s.device := by rw [frame]
  refine ⟨⟨?_, fun p hp => ?_, ?_, ?_, ?_⟩, fun p _ => ?_, config⟩
  · exact h.sch.congr (by rw [frame]) (by rw [frame]) fun p _ => by rw [hrun]; exact .refl _
  · rw [hrun, hdev, configKept p fun c hc => hp ⟨c, hc⟩]
    exact h.localOk p
  · exact h.cache.congr (by rw [frame]) fun p => by rw [hrun]
  · rw [frame]; exact h.locked
  · rw [frame]; exact h.edits
  · rw [hrun, hdev]
    exact h.localOk p

/-- The reaction of one position leaves it in order and the others as they were. -/
theorem reactConfig {p : Pos} {old new : PosConfig} (h : OrderlyBut loose s) (before : LocalOk old s.device s.run[p])
    (active : s.configs[p] = new) :
    OrderlyBut (fun q => q ≠ p ∧ loose q) (reactConfig p old new s) := by
  have stays {q : Pos} (hq : q ≠ p) : loose q → q ≠ p ∧ loose q := fun hl => ⟨hq, hl⟩
  have kept (hlocal : LocalOk new s.device s.run[p]) : OrderlyBut (fun q => q ≠ p ∧ loose q) s := by
    refine ⟨h.sch, fun q hq => ?_, h.cache, h.locked, h.edits⟩
    by_cases hqp : q = p
    · subst hqp
      rw [active]
      exact hlocal
    · exact h.atPos q fun hl => hq ⟨hqp, hl⟩
  have enabledStays (he : new.enabled = false → s.run[p].phase = .disabled) : LocalOk new s.device s.run[p] :=
    ⟨before.seated, before.unidentified, before.latched, before.revoked, he, before.starting⟩
  unfold Machine.reactConfig
  split
  · split
    · next hp => exact kept (enabledStays fun _ => hp)
    · exact h.removePart (fun _ => rfl) (fun _ => .inl rfl) (fun q hq => stays hq) _
  · next hoff =>
    split
    · next hon =>
      have enabled : new.enabled = false → s.run[p].phase = .disabled := fun hn => by rw [hon.2] at hn; cases hn
      split
      · have hdisabled := before.disabled hon.1
        have unseated : s.run[p].identity = none := by
          by_contra hn
          rcases before.seated hn with h' | h' <;> rw [hdisabled] at h' <;> cases h'
        have free : Unasked s p := h.sch.unasked (by rw [hdisabled]; decide) (by rw [hdisabled]; decide)
        refine h.modRun unseated.symm (.inl free) (fun _ => ?_) fun q hq => stays hq
        rw [active]
        exact .cleared (reason := none) (fun hn => by rw [hon.2] at hn; cases hn) fun _ => .inr rfl
      · exact kept (enabledStays enabled)
    · next hon =>
      have same : new.enabled = false → s.run[p].phase = .disabled := fun hn => by
        refine before.disabled ?_
        by_contra ho
        exact hoff ⟨by simpa using ho, hn⟩
      split
      · refine h.modRun rfl (.inr (.refl _)) (fun _ => ?_) fun q hq => stays hq
        rw [active]
        exact (enabledStays same).congr rfl rfl rfl rfl rfl
      · exact kept (enabledStays same)

theorem reactConfig_at (p : Pos) (old new : PosConfig) (s : State) : WorkAt p s (Machine.reactConfig p old new s) := by
  unfold Machine.reactConfig
  split
  · split
    · exact .refl p s
    · exact removePart_at _ _ p s
  · split
    · split
      · exact modRun_at _ _ s (modRun_work p _ s fun _ => ⟨by decide, by decide⟩)
      · exact .refl p s
    · split
      · exact modRun_at_of_score _ _ s
      · exact .refl p s

theorem Reacting.step {old : Vector PosConfig 48} {x : EditItem} {items : List EditItem} (hx : EditsOnce (x :: items))
    (h : Reacting old (x :: items) s) : Reacting old items (stepTwo old x s) := by
  obtain ⟨hother, -⟩ := hx.of_cons
  cases x with
  | cls i e =>
    have same (p : Pos) : Configures (.cls i e :: items) p ↔ Configures items p := by simp [Configures]
    exact ⟨⟨h.order.sch, fun p hp => h.order.atPos p fun hc => hp ((same p).1 hc), h.order.cache, h.order.locked,
      h.order.edits⟩, fun p hp => h.before p ((same p).2 hp), fun p c hc => h.active p c (List.mem_cons_of_mem _ hc)⟩
  | config p c =>
    have mine : Configures (.config p c :: items) p := ⟨c, List.mem_cons_self⟩
    have apart {q : Pos} (hq : Configures items q) : q ≠ p := by
      rintro rfl
      obtain ⟨c', hc'⟩ := hq
      exact hother _ hc' rfl
    have w := reactConfig_at p old[p] c s
    have order := reactConfig h.order (h.before p mine) (h.active p c List.mem_cons_self)
    rw [show stepTwo old (.config p c) s = Machine.reactConfig p old[p] c s from rfl]
    refine ⟨⟨order.sch, fun q hq => order.atPos q ?_, order.cache, order.locked, order.edits⟩, fun q hq => ?_, fun q c' hc' => ?_⟩
    · rintro ⟨hqp, c', hc'⟩
      rcases List.mem_cons.1 hc' with e | hc'
      · cases e
        exact hqp rfl
      · exact hq ⟨c', hc'⟩
    · rw [w.device, w.others q (apart hq)]
      exact h.before q (hq.imp fun _ => List.mem_cons_of_mem _)
    · rw [w.configs]
      exact h.active q c' (List.mem_cons_of_mem _ hc')

theorem Reacting.all {old : Vector PosConfig 48} {items : List EditItem} (hi : EditsOnce items) (h : Reacting old items s) :
    OrderlyBut nowhere (overItems (stepTwo old) items s) := by
  induction items generalizing s with
  | nil => exact ⟨h.order.sch, fun p _ => h.order.atPos p (by simp [Configures]), h.order.cache, h.order.locked, h.order.edits⟩
  | cons x items ih => exact ih hi.of_cons.2 (h.step hi)

/-! ### Steps 3 to 5: the classes (R50, R51) -/

/-- A position with a class index has a part. -/
theorem seated_of_class (h : OrderlyBut nowhere s) {p : Pos} (hc : s.run[p].classIndex ≠ none) : s.run[p].identity ≠ none :=
  fun hn => hc ((h.localOk p).unidentified hn).1

theorem loseClass (h : OrderlyBut nowhere s) {p : Pos} (hid : s.run[p].identity ≠ none) : OrderlyBut nowhere (loseClass p s) := by
  have lo := h.localOk p
  have phase : s.run[p].phase = .challenging ∨ s.run[p].phase = .held ∨ s.run[p].phase = .identifying := by
    have := lo.seated hid
    tauto
  have run := abandon_run_self p s
  have a := h.abandon p
  have free := abandon_unasked p s
  have la := a.localOk p
  unfold Machine.loseClass
  dsimp only
  generalize Machine.abandon p s = u at run a free la ⊢
  have hphase : u.run[p].phase = s.run[p].phase := by rw [run]
  have hlatch : u.run[p].latch = s.run[p].latch := by rw [run]
  have hident : u.run[p].identity ≠ none := by rw [run]; exact hid
  split
  · refine a.modRun ?_ (.inl free) (fun _ => ?_) fun _ _ hq => hq
    · rfl
    exact la.goesOn (by rwa [hphase]) la.seated (fun hn => absurd hn hident) la.latched la.revoked
  · next hl =>
    have unlatched : u.run[p].latch ≠ true := by rwa [hlatch]
    refine notifyChange (a.modRun ?_ (.inl free) (fun _ => ?_) fun _ _ hq => hq) _ _ _
    · rfl
    exact la.goesOn (by rwa [hphase]) (fun _ => .inr rfl) (fun hn => absurd hn hident) (fun hl => absurd hl unlatched)
      fun hv => by cases hv

theorem gainClass (h : OrderlyBut nowhere s) {p : Pos} (hid : s.run[p].identity ≠ none) (i : ClassIdx) :
    OrderlyBut nowhere (gainClass i p s) := by
  have lo := h.localOk p
  have phase := lo.seated hid
  have indexed {f : Runtime → Runtime} (hf : ∀ r, (f r).phase = r.phase ∧ (f r).identity = r.identity ∧
      (f r).classIndex = some i ∧ (f r).latch = r.latch ∧ (f r).verdict = r.verdict) :
      OrderlyBut nowhere (Machine.modRun p f s) := by
    obtain ⟨hphase, hident, hcls, hlatch, hverdict⟩ := hf s.run[p]
    refine h.modRun hident (.inr ⟨hphase, fun _ => by rw [hcls]; exact Option.some_ne_none i⟩) (fun _ => ?_) fun _ _ hq => hq
    refine lo.goesOn (by tauto) (fun _ => by rwa [hphase]) (fun hn => absurd (hident.symm.trans hn) hid) ?_ ?_
    · rw [hlatch, hverdict]; exact lo.latched
    · rw [hlatch, hverdict]; exact lo.revoked
  unfold Machine.gainClass
  split
  · refine indexed ?_
    exact fun _ => ⟨rfl, rfl, rfl, rfl, rfl⟩
  · refine callNew (indexed ?_) id ?_
    · exact fun _ => ⟨rfl, rfl, rfl, rfl, rfl⟩
    · rw [modRun_self]
      exact phase

theorem stepThree (h : OrderlyBut nowhere s) (x : EditItem) : OrderlyBut nowhere (stepThree x s) := by
  cases x with
  | config p c => exact h
  | cls i e =>
    unfold Machine.stepThree dropClass
    dsimp only
    refine h.serveAll fun p t ht => ?_
    split
    · next hc => exact ht.loseClass (ht.seated_of_class (by rw [hc.1]; exact Option.some_ne_none i))
    · exact ht

theorem stepFour (h : OrderlyBut nowhere s) (x : EditItem) : OrderlyBut nowhere (stepFour x s) := by
  cases x with
  | config p c => exact h
  | cls i e =>
    unfold Machine.stepFour addClass
    dsimp only
    split
    · exact h
    · refine h.serveAll fun p t ht => ?_
      split
      · next hc =>
        refine ht.gainClass (fun hn => ?_) i
        rw [hn] at hc
        cases hc.2
      · exact ht

theorem stepFive (h : OrderlyBut nowhere s) (old : Vector ClassEntry 32) (x : EditItem) : OrderlyBut nowhere (stepFive old x s) := by
  cases x with
  | config p c => exact h
  | cls i e =>
    unfold Machine.stepFive
    dsimp only
    split
    · refine h.serveAll fun p t ht => ?_
      split
      · exact ht.evaluate id _
      · exact ht
    · exact h

/-- The application of the pending edit set (R166). -/
theorem applyEdits (h : OrderlyBut nowhere s) : OrderlyBut nowhere (applyEdits s) := by
  have reacted := h.reacting.all h.edits
  have all : OrderlyBut nowhere (fiveSteps s) :=
    foldl (fun x t ht => ht.stepFive s.mgt.classes x) _
      (foldl (fun x t ht => ht.stepFour x) _ (foldl (fun x t ht => ht.stepThree x) _ reacted))
  rw [applyEdits_eq]
  exact all.withEdits List.nodup_nil

end OrderlyBut

end Sys2Proof.Machine
end

section
/-! PROOFS. The order of positions, queue, records and sighting entries under the issue of transactions, resets, the Setup
record and the requests of MGT; the obligations O57 and O60. -/

namespace Sys2Proof.Machine

/-- A record of this query may serve the position. -/
def QueryFits (r : Runtime) : Query → Prop
  | .ident => r.phase = .identifying
  | .challenge _ _ => r.phase = .challenging ∧ r.classIndex ≠ none

/-- A free record place is filled, for a position that has neither entry nor record. -/
theorem SchOk.opened {s : State} {p : Pos} {q : Query} (h : SchOk s) (hp : Unasked s p) (hq : QueryFits s.run[p] q) :
    SchOk (openRecord p q s) := by
  have distinct : RecordsDistinct (openRecord p q s) := by
    refine openRecord_distinct ?_ q h.records
    exact hasRecord_of_unasked s p hp
  unfold openRecord at distinct ⊢
  split at distinct
  · exact h
  · next i hi =>
    dsimp only at distinct ⊢
    have read (x : Record) {j : RecNo} {b : Record} (hb : (setRecord i (some x) s).sch.records[j] = some b) :
        b = x ∨ s.sch.records[j] = some b := by
      by_cases hj : j = i
      · subst hj; exact .inl (by simpa using hb.symm)
      · exact .inr (by simpa [hj] using hb)
    refine ⟨distinct, h.queueOnce, h.queueGroups, fun e he => ⟨(h.queued e he).1, fun j b hb => ?_⟩, fun j b hb hident => ?_,
      fun j b nonce slot hb hch => ?_⟩
    · rcases read _ hb with rfl | hb
      · exact fun e' => hp.1 e he e'.symm
      · exact (h.queued e he).2 j b hb
    · rcases read _ hb with rfl | hb
      · have hident : q = .ident := hident
        subst hident
        exact hq
      · exact h.identified j b hb hident
    · rcases read _ hb with rfl | hb
      · have hch : q = .challenge nonce slot := hch
        subst hch
        exact hq
      · exact h.challenged j b nonce slot hb hch

theorem openRecord_run (p : Pos) (q : Query) (s : State) : (openRecord p q s).run = s.run := by
  unfold openRecord
  split <;> rfl

namespace OrderlyBut

variable {s t : State}

/-! ### Issue (R62 to R68) -/

theorem opened (h : OrderlyBut nowhere s) {p : Pos} {q : Query} (hp : Unasked s p) (hq : QueryFits s.run[p] q) :
    OrderlyBut nowhere (openRecord p q s) := by
  have hrun := openRecord_run p q s
  have sch := h.sch.opened hp hq
  have eq := openRecord_eq p q s
  generalize openRecord p q s = t at hrun sch eq ⊢
  refine ⟨sch, fun x hx => ?_, h.cache.congr (by rw [eq]) fun x => by rw [hrun], ?_, ?_⟩
  · rw [hrun, eq]
    exact h.atPos x hx
  · rw [eq]; exact h.locked
  · rw [eq]; exact h.edits

theorem stepNonce (h : OrderlyBut nowhere s) : OrderlyBut nowhere (stepNonce s) := by
  unfold Machine.stepNonce
  split
  · exact h.congr rfl rfl rfl rfl rfl rfl rfl rfl
  · exact h.congr rfl rfl rfl rfl rfl rfl rfl rfl

theorem classIndex_of_classOf {r : Runtime} {e : ClassEntry} (h : classOf s r = some e) : r.classIndex ≠ none := by
  intro hn
  rw [classOf, hn] at h
  cases h

theorem issueChallenge (h : OrderlyBut nowhere s) {p : Pos} (hp : Unasked s p) (hc : s.run[p].phase = .challenging) :
    OrderlyBut nowhere (issueChallenge p s) := by
  unfold Machine.issueChallenge
  split
  · exact h
  · next e he => exact (h.opened hp (q := .challenge (currentNonce s) e.keySlot)
      ⟨hc, classIndex_of_classOf he⟩).stepNonce

theorem issueRound (h : OrderlyBut nowhere s) {p : Pos} (hp : Unasked s p)
    (hc : s.run[p].phase = .challenging ∨ s.run[p].phase = .held) (kind : RoundKind) :
    OrderlyBut nowhere (Machine.issueChallenge p (startRound p kind s)) := by
  unfold startRound
  split
  · next he =>
    unfold Machine.issueChallenge
    simp only [he]
    exact h
  · next e he =>
    have lo := h.localOk p
    refine issueChallenge (h.modRun rfl (.inl hp) (fun _ => ?_) fun _ _ hq => hq) hp ?_
    · exact lo.goesOn (by tauto) (fun _ => .inl rfl) lo.unidentified lo.latched lo.revoked
    · rw [modRun_self]

theorem dequeue (h : OrderlyBut nowhere s) (p : Pos) : OrderlyBut nowhere (dequeue p s) :=
  (h.withoutEntries p).modRun_unread fun _ => ⟨rfl, rfl, rfl, rfl, rfl⟩

theorem dequeue_unasked {p : Pos} (hp : hasRecord s p = false) : Unasked (Machine.dequeue p s) p := by
  refine ⟨fun e he => ?_, fun i r hi hr => ?_⟩
  · simpa using (List.mem_filter.1 he).2
  · exact Bool.false_ne_true (hp.symm.trans ((hasRecord_eq s p).2 ⟨i, r, hi, hr⟩))

theorem resend (h : OrderlyBut nowhere s) (i : RecNo) : OrderlyBut nowhere (resend i s) := by
  unfold Machine.resend
  split
  · exact h
  · next rec hr =>
    have again : OrderlyBut nowhere (Machine.setRecord i (some { rec with
        attempt := rec.attempt + 1, deadline := s.now + s.mgt.setup.answerTimeout, state := .issued }) s) :=
      h.setRecord fun r hx => ⟨rec, hr, by cases hx; exact ⟨rfl, rfl, rfl⟩⟩
    exact again.congr rfl rfl rfl rfl rfl rfl rfl rfl

theorem moveCursor (h : OrderlyBut nowhere s) (p : Pos) : OrderlyBut nowhere (moveCursor p s) :=
  h.congr rfl rfl rfl rfl rfl rfl rfl rfl

theorem held_of_sweepable {p : Pos} (h : sweepable s p = true) : s.run[p].phase = .held := by
  simp only [sweepable, sweepEligible, Bool.and_eq_true, beq_iff_eq] at h
  exact h.1.1.1.1

theorem fill (h : OrderlyBut nowhere s) {c : Choice} (hc : ChoiceFits s c) : OrderlyBut nowhere (fill c s) := by
  have free := choice_noRecord hc
  cases c with
  | resend i => exact h.resend i
  | continuation p =>
    simp only [ChoiceFits, continuing, Bool.and_eq_true, beq_iff_eq, Bool.not_eq_true'] at hc
    obtain ⟨⟨⟨⟨hphase, -⟩, -⟩, hrec⟩, hentry⟩ := hc
    have counted := h.modRun_unread (p := p) (f := fun r => { r with remaining := r.remaining - 1 })
      fun _ => ⟨rfl, rfl, rfl, rfl, rfl⟩
    refine counted.issueChallenge (unasked_of_not_asked hentry hrec) ?_
    rw [modRun_self]
    exact hphase
  | queued e =>
    obtain ⟨hphase, -⟩ := h.sch.queued e hc.1
    have taken := h.dequeue e.position
    have unasked := dequeue_unasked free
    have same : (Machine.dequeue e.position s).run[e.position].phase = s.run[e.position].phase := by
      unfold Machine.dequeue
      rw [modRun_self]
    have challenged (hk : e.kind ≠ .ident) : (Machine.dequeue e.position s).run[e.position].phase = .challenging := by
      rw [same, hphase, if_neg hk]
    unfold Machine.fill
    dsimp only
    split
    · next hk => exact taken.opened unasked (by rw [QueryFits, same, hphase, if_pos hk])
    · next hk => exact taken.issueRound unasked (.inl (challenged (by rw [hk]; decide))) _
    · next hk => exact taken.issueRound unasked (.inl (challenged (by rw [hk]; decide))) _
  | sweepIdent p =>
    obtain ⟨hsweep, hnone⟩ := hc
    have hheld := held_of_sweepable hsweep
    have lo := h.localOk p
    have unasked := h.unasked_held hheld
    refine opened (modRun (h.moveCursor p) rfl (.inl unasked) (fun _ => ?_) fun _ _ hq => hq) unasked ?_
    · exact lo.goesOn (.inr (.inl hheld)) (fun hn => absurd hnone hn) lo.unidentified lo.latched lo.revoked
    · rw [modRun_self]
      rfl
  | sweepRound p =>
    have hheld := held_of_sweepable hc.1
    exact (h.moveCursor p).issueRound (h.unasked_held hheld) (.inr hheld) _

/-! ### Requests of MGT -/

theorem stageItem_once {edits : List EditItem} (h : EditsOnce edits) (x : EditItem) : EditsOnce (stageItem edits x) := by
  unfold stageItem
  split
  · have same : (edits.map (fun y => if x.sameEntry y then x else y)).map EditItem.entry = edits.map EditItem.entry := by
      rw [List.map_map]
      refine List.map_congr_left fun y _ => ?_
      show (if x.sameEntry y then x else y).entry = y.entry
      split
      · next hs => exact (EditItem.sameEntry_iff x y).1 hs
      · rfl
    rw [EditsOnce, same]
    exact h
  · next hnew =>
    rw [EditsOnce, List.map_append, List.nodup_append_comm]
    refine List.nodup_cons.2 ⟨fun hm => ?_, h⟩
    obtain ⟨y, hy, e⟩ := List.mem_map.1 hm
    exact hnew (List.any_eq_true.2 ⟨y, hy, (EditItem.sameEntry_iff x y).2 e.symm⟩)

theorem staged_once (items : List EditItem) {edits : List EditItem} (h : EditsOnce edits) :
    EditsOnce (items.foldl stageItem edits) := by
  induction items generalizing edits with
  | nil => exact h
  | cons x items ih => exact ih (stageItem_once h x)

theorem stage (h : OrderlyBut nowhere s) (items : List EditItem) : OrderlyBut nowhere (stage items s) :=
  h.withEdits (staged_once items h.edits)

/-- The Setup record is written in STARTING: each position is DISABLED or VACANT, and the positions follow the count (R6). -/
theorem setup (h : OrderlyBut nowhere s) (hlock : s.mgt.setupLock = false) (p : Setup) :
    OrderlyBut nowhere (recountPositions p.positionCount { s with mgt := { s.mgt with setup := p, setupLock := true } }) := by
  have hd : s.device = .starting := by
    cases hd : s.device with
    | starting => rfl
    | running => rw [h.locked hd] at hlock; cases hlock
  have resting (q : Pos) := (h.localOk q).starting hd
  have unasked (q : Pos) : Unasked s q :=
    h.sch.unasked (by rcases resting q with e | e <;> rw [e] <;> decide) (by rcases resting q with e | e <;> rw [e] <;> decide)
  have unseated (q : Pos) : s.run[q].identity = none := by
    by_contra hn
    rcases (h.localOk q).seated hn with h' | h' <;> rcases resting q with e | e <;> rw [e] at h' <;> cases h'
  have read (q : Pos) : (recountPositions p.positionCount
      { s with mgt := { s.mgt with setup := p, setupLock := true } }).run[q] =
      if p.positionCount < q.val + 1 then { s.run[q] with phase := .disabled }
      else if s.configs[q].enabled = true ∧ s.run[q].phase = .disabled then { s.run[q] with phase := .vacant }
      else s.run[q] := by simp [recountPositions]
  have frame : recountPositions p.positionCount { s with mgt := { s.mgt with setup := p, setupLock := true } } =
      { s with
        run := (recountPositions p.positionCount { s with mgt := { s.mgt with setup := p, setupLock := true } }).run,
        mgt := { s.mgt with setup := p, setupLock := true } } := rfl
  generalize recountPositions p.positionCount { s with mgt := { s.mgt with setup := p, setupLock := true } } = t
    at read frame ⊢
  rw [frame]
  refine ⟨?_, fun q _ => ?_, ?_, fun _ => rfl, h.edits⟩
  · exact h.sch.congr rfl rfl fun q hq => absurd (unasked q) hq
  · dsimp only
    rw [read q]
    have lo := h.localOk q
    have seated {r : Runtime} (hr : r.identity = s.run[q].identity) (hn : r.identity ≠ none) : False :=
      hn (hr.trans (unseated q))
    split
    · exact ⟨fun hn => (seated rfl hn).elim, lo.unidentified, lo.latched, lo.revoked, fun _ => rfl, fun _ => .inl rfl⟩
    · split
      · next hv =>
        refine ⟨fun hn => (seated rfl hn).elim, lo.unidentified, lo.latched, lo.revoked, fun hc => ?_, fun _ => .inr rfl⟩
        have hc : s.configs[q].enabled = false := hc
        rw [hv.1] at hc
        cases hc
      · exact lo
  · refine h.cache.congr rfl fun q => ?_
    dsimp only
    rw [read q]
    split
    · rfl
    · split <;> rfl

theorem reidentify (h : OrderlyBut nowhere s) {p : Pos} (hp : s.run[p].phase = .held) (hi : s.run[p].identity = none) :
    OrderlyBut nowhere (Machine.ask p .ident none
      (Machine.modRun p (fun r => { r with phase := .identifying, sweepAge := 0 }) s)) := by
  have lo := h.localOk p
  refine ask (h.modRun rfl (.inl (h.unasked_held hp)) (fun _ => ?_) fun _ _ hq => hq) ?_ none
  · exact lo.goesOn (.inr (.inl hp)) (fun hn => absurd hi hn) lo.unidentified lo.latched lo.revoked
  · rw [modRun_self]
    rfl

/-- A seated part of a revoked entry (R107). -/
theorem revokePosition (h : OrderlyBut nowhere s) {p : Pos} (hid : s.run[p].identity ≠ none) :
    OrderlyBut nowhere (revokePosition p s) := by
  have run := abandon_run_self p s
  have a := h.abandon p
  have free := abandon_unasked p s
  unfold Machine.revokePosition
  generalize Machine.abandon p s = u at run a free ⊢
  have hident : u.run[p].identity ≠ none := by rw [run]; exact hid
  have forced := a.force id hident (.inr rfl) .revoked
  have hsch := force_sch p .revoked .revoked u
  have lo := forced.localOk p
  have seated : (Machine.force p .revoked .revoked u).run[p].identity ≠ none := by
    unfold Machine.force
    rw [notifyChange_run_at, modRun_self]
    exact hident
  have phase := lo.seated seated
  refine forced.modRun ?_ (.inl ?_) (fun _ => ?_) fun _ _ hq => hq
  · rfl
  · unfold Unasked
    rw [hsch]
    exact free
  · exact lo.goesOn (by tauto) (fun _ => .inr rfl) lo.unidentified lo.latched lo.revoked

theorem serveKeyMissing (h : OrderlyBut nowhere s) {p : Pos} (hp : s.run[p].phase = .held) :
    OrderlyBut nowhere (serveKeyMissing p s) := by
  unfold Machine.serveKeyMissing
  dsimp only
  split
  · refine h.modRun_unread ?_
    exact fun _ => ⟨rfl, rfl, rfl, rfl, rfl⟩
  · refine callDue (h.modRun_unread ?_) id (.inr ?_) .due
    · exact fun _ => ⟨rfl, rfl, rfl, rfl, rfl⟩
    · rw [modRun_self]
      exact hp

/-! ### Resets (R27, R102) -/

theorem restPhase_disabled {c : PosConfig} {count : Nat} {p : Pos} (hc : c.enabled = false) :
    restPhase c count p = .disabled :=
  if_neg fun h => Bool.false_ne_true (hc.symm.trans h.1)

theorem restPhase_rests (c : PosConfig) (count : Nat) (p : Pos) :
    restPhase c count p = .disabled ∨ restPhase c count p = .vacant := by
  unfold restPhase
  split
  · exact .inr rfl
  · exact .inl rfl

theorem reset (h : OrderlyBut nowhere s) (kind : ResetKind) : OrderlyBut nowhere (resetTo kind s) := by
  have noRecord (i : RecNo) : (resetTo kind s).sch.records[i] = none := by simp [resetTo, Sch.initial]
  have resting (p : Pos) : (resetTo kind s).run[p] = Runtime.cleared (restPhase (resetTo kind s).configs[p]
      (resetTo kind s).mgt.setup.positionCount p) := by simp [resetTo, restingPositions]
  have sightings : (resetTo kind s).sightings = [] ∨ (resetTo kind s).sightings = emptyHolders s.sightings := by
    cases kind <;> simp [resetTo, ResetKind.keeps]
  have edits : (resetTo kind s).mgt.edits = [] := by cases kind <;> rfl
  have noPart (p : Pos) (id : Identity) (e : (resetTo kind s).run[p].identity = some id) : False := by
    rw [resting p] at e
    cases e
  refine ⟨⟨⟨fun i j a b ha => ?_, fun i a ha => ?_⟩, ?_, ⟨[], [], rfl, by simp, by simp⟩, fun e he => ?_, fun i r hr => ?_,
    fun i r nonce slot hr => ?_⟩, fun p _ => ?_, ⟨?_, fun e he p hp => ?_, fun p id hid => (noPart p id hid).elim, ?_⟩,
    fun hd => (by cases hd), ?_⟩
  · rw [noRecord i] at ha; cases ha
  · rw [noRecord i] at ha; cases ha
  · exact List.nodup_nil
  · cases he
  · rw [noRecord i] at hr; cases hr
  · rw [noRecord i] at hr; cases hr
  · rw [resting p]
    exact LocalOk.cleared (reason := none) restPhase_disabled fun _ => restPhase_rests _ _ _
  · rcases sightings with e | e
    · rw [e]; exact List.nodup_nil
    · rw [e, emptyHolders, List.map_map]
      exact h.cache.sightedOnce
  · rcases sightings with e' | e'
    · rw [e'] at he; cases he
    · rw [e'] at he
      obtain ⟨x, -, rfl⟩ := List.mem_map.1 he
      cases hp
  · rcases sightings with e | e
    · rw [e]; exact Nat.zero_le _
    · rw [e, emptyHolders, List.length_map]
      exact h.cache.cacheFits
  · rw [edits]
    exact List.nodup_nil

/-! ### Boundaries -/

theorem passage (h : OrderlyBut nowhere s) : OrderlyBut nowhere (passage s) := by
  unfold Machine.passage
  split
  · next hp =>
    exact ⟨h.sch.congr rfl rfl fun _ _ => .refl _, fun p _ => ⟨(h.localOk p).seated, (h.localOk p).unidentified, (h.localOk p).latched,
      (h.localOk p).revoked, (h.localOk p).disabled, fun hs => by cases hs⟩, h.cache.congr rfl fun _ => rfl, fun _ => hp.2.2, h.edits⟩
  · exact h

theorem countStart (h : OrderlyBut nowhere s) : OrderlyBut nowhere (countStart s) := by
  unfold Machine.countStart
  split
  · exact passage (h.congr rfl rfl rfl rfl rfl rfl rfl rfl)
  · exact h

theorem quiet (h : OrderlyBut nowhere s) (q : Quiet s t) : OrderlyBut nowhere t := by
  apply h.congr <;> rw [q.frame]

end OrderlyBut

theorem hits_identity {e : Revocation} {r : Runtime} (h : revocationHits e r = true) : r.identity ≠ none := by
  intro hn
  simp [revocationHits, hn] at h

/-- Every operation keeps the order. -/
theorem op_orderlyBut {s t : State} (op : Op s t) (h : OrderlyBut nowhere s) : OrderlyBut nowhere t := by
  have same (x : KeyStore) : OrderlyBut nowhere { s with kst := x } := h.congr rfl rfl rfl rfl rfl rfl rfl rfl
  cases op with
  | quiet q => exact h.quiet q
  | abort => exact h.congr rfl rfl rfl rfl rfl rfl rfl rfl
  | reset kind => exact h.reset kind
  | count => exact h.countStart
  | pass => exact h.passage
  | sweepAge p => exact h.advanceSweep p
  | decay p => exact h.advanceDecay id
  | input p i hd => exact h.handleInput hd i
  | settle p counter hd hp => exact h.completeSettling hd hp counter
  | lose p hd hp => exact h.losePart hd fun e => by rw [e] at hp; cases hp
  | apply => exact h.applyEdits
  | stage items _ => exact h.stage items
  | discard => exact h.withEdits List.nodup_nil
  | fill c _ hc => exact h.fill (choose_fits hc)
  | identify i rec id hr hq => exact (h.freed i).identify (h.sch.identified i rec hr hq) (h.unasked_freed hr) id
  | verify i rec nonce slot odo response hr hq => exact h.verify hr hq odo response
  | expire i rec hr => exact h.expire hr
  | await i rec state hr => exact h.setRecord fun r hx => ⟨rec, hr, by cases hx; exact ⟨rfl, rfl, rfl⟩⟩
  | setup p hl => exact h.setup hl p
  | release p => exact h.modRun_unread fun _ => ⟨rfl, rfl, rfl, rfl, rfl⟩
  | reidentify p hp hi => exact h.reidentify hp hi
  | call p round hp => exact h.callDue id (.inr hp) round
  | revocations l _ => exact h.congr rfl rfl rfl rfl rfl rfl rfl rfl
  | insert e _ _ => exact h.congr rfl rfl rfl rfl rfl rfl rfl rfl
  | revoke p e hh => exact h.revokePosition (hits_identity hh)
  | start op _ => exact same _
  | eraseRecord page i => exact h.eraseRecord page i
  | programmed slot key due x result _ => exact same _
  | erased page due f result _ => exact same _
  | lowered boundary due result _ => exact same _
  | epoch e _ => exact same _
  | startPending => exact same _
  | serveKey p hp => exact h.serveKeyMissing hp

theorem op_orderly {s t : State} (op : Op s t) (h : Orderly s) : Orderly t := (op_orderlyBut op h.but).orderly

/-- Settles O57, operation by operation: scores, queues and the order are each kept. -/
theorem everyStepKeepsTheBounds : Obligations.EveryStepKeepsTheBounds := by
  unfold Obligations.EveryStepKeepsTheBounds
  exact fun s t h => ⟨step_keeps (fun _ _ => op_scores) h, step_keeps (fun _ _ => op_queuesFit) h,
    step_keeps (fun _ _ => op_orderly) h⟩

end Sys2Proof.Machine
end

section
/-! PROOFS. Steps, the time base and the resets (11): the front command and the tick, totality, the delivered values, and what
POR, pin reset, line reset, RESET and loss of power leave. -/

namespace Sys2Proof.Machine

/-! ### Steps and the time base -/

theorem tick_eq (s : State) : tick s = if s.live = true then
    { s with now := s.now + 1, fwd := { s.fwd with stillTimer := s.fwd.stillTimer.map (· + 1) } } else s := by
  unfold tick
  split
  · cases h : s.fwd.stillTimer <;> rfl
  · rfl

theorem step_idle {s : State} (h : s.pending = []) : step s = .next (tick s) := by
  rw [step, h]

theorem step_front {s : State} {c : Instr} {rest : List Instr} (h : s.pending = c :: rest) :
    step s = exec c { s with pending := rest } := by
  rw [step, h]

/-- Settles O1. -/
theorem stepTakesTheFrontCommand : Obligations.StepTakesTheFrontCommand := by
  unfold Obligations.StepTakesTheFrontCommand
  exact ⟨fun s c rest h => step_front h, fun s h => (step_idle h).trans (congrArg _ (tick_eq s))⟩

/-- Settles O2: each row's meaning is a next state. -/
theorem everyCommandAnswersNext : Obligations.EveryCommandAnswersNext := by
  unfold Obligations.EveryCommandAnswersNext
  intro c s
  cases c
  all_goals exact ⟨_, rfl⟩

/-! ### The delivered part -/

@[simp] theorem reset_config (p : Pos) : State.reset.configs[p] = PosConfig.default := by simp [State.reset]
@[simp] theorem reset_run (p : Pos) : State.reset.run[p] = Runtime.cleared .vacant := by simp [State.reset]
@[simp] theorem reset_record (i : RecNo) : State.reset.sch.records[i] = none := by simp [State.reset, Sch.initial]

/-- Settles O3. -/
theorem resetStateIsAsDelivered : Obligations.ResetStateIsAsDelivered := by
  unfold Obligations.ResetStateIsAsDelivered
  refine ⟨rfl, rfl, fun p => reset_config p, fun p => reset_run p, rfl, rfl, fun i => reset_record i, rfl, rfl, rfl, rfl,
    fun p => ?_, rfl, rfl, rfl, rfl, rfl, rfl, rfl, rfl, fun i => ?_, rfl, rfl, rfl, rfl, rfl, rfl, rfl, rfl, fun i => ?_,
    rfl, rfl, rfl, rfl, rfl⟩
  · simp [State.reset]
  · simp [State.reset, Mgt.initial, ClassEntry.empty]
  · simp [State.reset]

theorem reset_orderly : Orderly State.reset := by
  have noPart (p : Pos) : State.reset.run[p].identity = none := by rw [reset_run]; rfl
  refine OrderlyBut.orderly ⟨⟨⟨fun i j a b ha => ?_, fun i a ha => ?_⟩, List.nodup_nil, ⟨[], [], rfl, by simp, by simp⟩,
    fun e he => ?_, fun i r hr => ?_, fun i r nonce slot hr => ?_⟩, fun p _ => ?_,
    ⟨List.nodup_nil, fun e he => ?_, fun p id hid => ?_, Nat.zero_le _⟩, fun hd => (by cases hd), List.nodup_nil⟩
  · rw [reset_record] at ha; cases ha
  · rw [reset_record] at ha; cases ha
  · cases he
  · rw [reset_record] at hr; cases hr
  · rw [reset_record] at hr; cases hr
  · rw [reset_run, reset_config]
    exact LocalOk.cleared (reason := none) (fun hc => by cases hc) fun _ => .inr rfl
  · cases he
  · rw [noPart p] at hid; cases hid

/-- Settles O60. -/
theorem resetMeetsTheInvariants : Obligations.ResetMeetsTheInvariants := by
  unfold Obligations.ResetMeetsTheInvariants
  refine ⟨fun p => ?_, ⟨Nat.zero_le _, Nat.zero_le _, Nat.zero_le _, Nat.zero_le _, Nat.zero_le _⟩, reset_orderly, trivial,
    reset_orderly.records, List.Pairwise.nil⟩
  rw [reset_run]
  exact ⟨by decide, by decide⟩

/-! ### The abort of a key operation (R189) -/

theorem setPage_getElem (page : Fin 4) (f : Fin 4 → KeySlot) (slots : Vector KeySlot 16) (i : SlotNo) :
    (setPage page f slots)[i] = if pageOf i = page then f ⟨i.val % 4, by omega⟩ else slots[i] := by
  simp [setPage]

theorem pageOf_eq_iff (i : SlotNo) (page : Fin 4) : pageOf i = page ↔ page.val = i.val / 4 := by
  rw [Fin.ext_iff]
  exact eq_comm

theorem setSlot_getElem (k : KeyStore) (slot i : SlotNo) (x : KeySlot) :
    (k.slots.set slot.val x slot.isLt)[i] = if slot = i then x else k.slots[i] := by
  by_cases h : slot = i
  · subst h
    simp
  · rw [if_neg h]
    simp only [Fin.getElem_fin]
    exact Vector.getElem_set_ne _ _ fun e => h (Fin.ext e)

theorem abort_slots (written : Bool) (k : KeyStore) (i : SlotNo) :
    (k.abort written).slots[i] = if k.reaches i = true then .faulty else k.slots[i] := by
  unfold KeyStore.abort KeyStore.reaches
  cases k.op with
  | idle => rfl
  | programming slot key due =>
    dsimp only
    rw [setSlot_getElem]
    simp only [beq_iff_eq]
  | erasing page due =>
    dsimp only
    rw [setPage_getElem]
    simp only [beq_iff_eq, pageOf_eq_iff]
  | protecting boundary due => rfl
  | epochUpdate due => rfl

theorem abort_boundary (written : Bool) (k : KeyStore) : (k.abort written).boundary = k.boundary := by
  unfold KeyStore.abort
  split <;> rfl

theorem abort_op (written : Bool) (k : KeyStore) : (k.abort written).op = .idle ∧ (k.abort written).epochPending = false := by
  unfold KeyStore.abort
  split
  · next h => exact ⟨h, rfl⟩
  all_goals exact ⟨rfl, rfl⟩

theorem abort_epoch (written : Bool) (k : KeyStore) :
    (k.abort written).epoch = k.epoch ∨ (k.updating = true ∧ (k.abort written).epoch = k.epoch + 1) := by
  unfold KeyStore.abort KeyStore.updating
  cases k.op with
  | epochUpdate due =>
    cases written
    · exact .inl rfl
    · exact .inr ⟨rfl, rfl⟩
  | idle => exact .inl rfl
  | programming slot key due => exact .inl rfl
  | erasing page due => exact .inl rfl
  | protecting boundary due => exact .inl rfl

theorem abort_array (written : Bool) (k : KeyStore) : ArrayAfterAbort k (k.abort written) :=
  ⟨abort_slots written k, abort_boundary written k, abort_epoch written k⟩

/-- After a reset the epoch update is requested of an idle key store (R180, R186, R193). -/
theorem afterReset_eq (now : Nat) (k : KeyStore) : k.afterReset now =
    { k with op := if k.epoch = BitVec.allOnes 32 then .idle else .epochUpdate (now + 4), epochPending := false,
             lastResult := .none } := by
  unfold KeyStore.afterReset KeyStore.requestEpoch
  by_cases h : k.epoch = BitVec.allOnes 32
  · simp only [h, if_true]
  · simp only [h, if_false]
    rfl

theorem reset_keyStore (kind : ResetKind) (s : State) : KeyStoreAfterReset s.now s.kst (resetTo kind s).kst := by
  have array := abort_array (Config.epochWritten s.freeIndex) s.kst
  have eq : (resetTo kind s).kst = (s.kst.abort (Config.epochWritten s.freeIndex)).afterReset s.now := rfl
  rw [afterReset_eq] at eq
  rw [eq]
  exact ⟨⟨array.slots, array.boundary, array.epoch⟩, rfl, rfl, rfl⟩

/-! ### The resets (R191) -/

theorem restingPositions_getElem (configs : Vector PosConfig 48) (count : Nat) (p : Pos) :
    (restingPositions configs count)[p] = Runtime.cleared (restPhase configs[p] count p) := by simp [restingPositions]

/-- With the delivered configurations and Setup record every position is VACANT (R6). -/
theorem restingPositions_default :
    restingPositions (Vector.replicate 48 PosConfig.default) 48 = Vector.replicate 48 (Runtime.cleared .vacant) := by
  ext i hi
  · have := restingPositions_getElem (Vector.replicate 48 PosConfig.default) 48 ⟨i, hi⟩
    simp only [Fin.getElem_fin] at this
    rw [this, Vector.getElem_replicate, Vector.getElem_replicate, restPhase, if_pos ⟨rfl, hi⟩]

/-- POR and pin reset return every block to its delivered values but the key array. -/
theorem resetTo_delivered {kind : ResetKind} (hk : kind.keeps = false) (s : State) :
    resetTo kind s = { State.reset with
      pending := s.pending, now := s.now, freeIndex := (resetTo kind s).freeIndex, kst := (resetTo kind s).kst,
      mgt := { State.reset.mgt with resetCause := kind.cause } } := by
  have positions := restingPositions_default
  cases kind with
  | power =>
    rw [show resetTo .power s = { resetTo .power s with
      run := restingPositions (Vector.replicate 48 PosConfig.default) 48 } from rfl, positions]
    rfl
  | pin =>
    rw [show resetTo .pin s = { resetTo .pin s with
      run := restingPositions (Vector.replicate 48 PosConfig.default) 48 } from rfl, positions]
    rfl
  | line => cases hk

theorem breakOff_eq (s : State) : breakOff s = { s with
    freeIndex := (breakOff s).freeIndex, kst := (breakOff s).kst,
    fwd := { s.fwd with dSending := none, dWaiting := none, uSending := none, uReady := [] } } := rfl

theorem breakOff_array (s : State) : ArrayAfterAbort s.kst (breakOff s).kst := abort_array _ _

theorem breakOff_idle (s : State) : (breakOff s).kst.op = .idle ∧ (breakOff s).kst.epochPending = false := abort_op _ _

/-- Settles O4. -/
theorem powerOnAndPinResetReturnDeliveredValues : Obligations.PowerOnAndPinResetReturnDeliveredValues := by
  unfold Obligations.PowerOnAndPinResetReturnDeliveredValues
  intro s
  have pinReset (hr : s.resetAsserted = true) : exec .pinReset s = .next (match s.supply with
      | .on => resetTo .pin s
      | .risen => resetTo .power s
      | .off => { s with resetAsserted := false }) := by
    rw [show exec .pinReset s = execPinReset s from rfl, execPinReset, hr]
    rfl
  have por : exec .por s = .next (if s.resetAsserted = true then { breakOff s with supply := .risen } else resetTo .power s) :=
    rfl
  obtain ⟨idle, noPending⟩ := breakOff_idle s
  refine ⟨fun hr => ⟨resetTo .power s, ?_, reset_keyStore .power s, resetTo_delivered rfl s⟩,
    fun hr hs => ⟨resetTo .pin s, ?_, reset_keyStore .pin s, resetTo_delivered rfl s⟩,
    fun hr hs => ⟨resetTo .power s, ?_, reset_keyStore .power s, resetTo_delivered rfl s⟩,
    fun hr => ⟨{ breakOff s with supply := .risen }, ?_, breakOff_array s, idle, noPending, ?_⟩, fun hr hs => ?_, fun hr => ?_⟩
  · rw [por, hr]; rfl
  · rw [pinReset hr, hs]
  · rw [pinReset hr, hs]
  · rw [por, if_pos hr]
  · rw [breakOff_eq]
  · rw [pinReset hr, hs]
  · rw [show exec .pinReset s = execPinReset s from rfl, execPinReset, if_pos hr]

theorem exec_lineReset {s : State} {f : Frame} (h : Arrives s f 0x70) :
    exec (.lineReset f) s = .next (takeLineReset f.tag s) :=
  onRequest_of_arrives h (takeLineReset f.tag)

/-- Settles O5. -/
theorem lineResetKeepsTheTables : Obligations.LineResetKeepsTheTables := by
  unfold Obligations.LineResetKeepsTheTables
  intro s f h
  refine ⟨takeLineReset f.tag s, exec_lineReset h, reset_keyStore .line _, fun p => ?_, rfl, ?_⟩
  · exact restingPositions_getElem _ _ p
  · rfl

/-! ### The part at rest (R190, R192) -/

/-- A part that is not live lets what a command does pass. -/
theorem next_of_not_live {s : State} (h : s.live = false) (t : State) :
    (.next (if s.live = true then t else s) : Host.Outcome State Fault Refusal) = .next s := by
  rw [h]
  rfl

theorem live_eq_false_iff (s : State) : s.live = false ↔ s.resetAsserted = true ∨ s.supply ≠ .on := by
  unfold State.live
  cases s.resetAsserted <;> simp

/-- Settles O6: the commands of supply and line one by one; every other one acts on a live part only. -/
theorem resetLineAndPowerLossStopThePart : Obligations.ResetLineAndPowerLossStopThePart := by
  unfold Obligations.ResetLineAndPowerLossStopThePart
  refine ⟨fun s => ?_, fun s c h hpor hloss hassert hpin => ?_⟩
  · obtain ⟨idle, noPending⟩ := breakOff_idle s
    refine ⟨{ breakOff s with supply := .off }, { breakOff s with resetAsserted := true }, rfl, fun hl => ?_, fun hl => ?_,
      breakOff_array s, idle, noPending, ?_, ?_⟩
    · rw [show exec .resetAssert s = execResetAssert s from rfl, execResetAssert, if_pos hl]
    · rw [show exec .resetAssert s = execResetAssert s from rfl, execResetAssert, hl]
      rfl
    · rw [breakOff_eq]
    · rw [breakOff_eq]
  · have dead := next_of_not_live ((live_eq_false_iff s).2 h)
    cases c
    case por => exact absurd rfl hpor
    case powerLoss => exact absurd rfl hloss
    case resetAssert => exact absurd rfl hassert
    case pinReset => exact absurd rfl hpin
    all_goals exact dead _

end Sys2Proof.Machine
end

section
/-! PROOFS. The check sequence (08.1): the register over a closed telegram ends at 0, and a service telegram the part builds
passes the tests of R144. -/

namespace Sys2Proof.Machine

/-! ### The register takes its own bits -/

/-- A bit that equals the top bit shifts the register. -/
theorem crcBit_top (r : BitVec 16) {k : Nat} (hk : k < 16) : crcBit (r <<< k) (r.getLsbD (15 - k)) = r <<< (k + 1) := by
  have top : (r <<< k).msb = r.getLsbD (15 - k) := by
    have : ¬ 15 < k := by omega
    rw [BitVec.msb_eq_getLsbD_last, BitVec.getLsbD_shiftLeft]
    simp [this]
  rw [crcBit, top, bne_self_eq_false, if_neg Bool.false_ne_true, ← BitVec.shiftLeft_add]

/-- Eight such bits, the byte's top bit first. -/
theorem crcByte_top (r : BitVec 16) {k : Nat} (hk : k ≤ 8) (x : Byte) (hx : ∀ i < 8, x.getLsbD i = r.getLsbD (8 - k + i)) :
    crcByte (r <<< k) x = r <<< (k + 8) := by
  have bit (j : Nat) (hj : j < 8) : crcBit (r <<< (k + j)) (x.getLsbD (7 - j)) = r <<< (k + (j + 1)) := by
    rw [hx (7 - j) (by omega), show 8 - k + (7 - j) = 15 - (k + j) by omega]
    exact crcBit_top r (by omega)
  have b0 := bit 0 (by omega)
  simp only [crcByte, List.foldl]
  simp only [Nat.add_zero, Nat.sub_zero] at b0
  rw [b0, bit 1 (by omega), bit 2 (by omega), bit 3 (by omega), bit 4 (by omega), bit 5 (by omega), bit 6 (by omega),
    bit 7 (by omega)]

theorem be_two (r : BitVec 16) : be 2 r.toNat = [r.extractLsb' 8 8, r.extractLsb' 0 8] := by
  have high : BitVec.ofNat 8 (r.toNat / 256 ^ 1) = r.extractLsb' 8 8 := by
    apply BitVec.eq_of_toNat_eq
    rw [BitVec.toNat_ofNat, BitVec.extractLsb'_toNat, Nat.shiftRight_eq_div_pow, Nat.pow_one]
  have low : BitVec.ofNat 8 (r.toNat / 256 ^ 0) = r.extractLsb' 0 8 := by
    apply BitVec.eq_of_toNat_eq
    rw [BitVec.toNat_ofNat, BitVec.extractLsb'_toNat, Nat.shiftRight_zero, Nat.pow_zero, Nat.div_one]
  rw [be, be, be, high, low]

/-- The two bytes of the register bring it to 0. -/
theorem foldl_own (r : BitVec 16) : (be 2 r.toNat).foldl crcByte r = 0 := by
  have first := crcByte_top r (k := 0) (by decide) (r.extractLsb' 8 8) fun i hi => by
    simp [hi]
  have second := crcByte_top r (k := 8) (by decide) (r.extractLsb' 0 8) fun i hi => by
    simp [hi]
  rw [BitVec.shiftLeft_zero] at first
  rw [be_two, List.foldl_cons, List.foldl_cons, List.foldl_nil, first, second]
  exact BitVec.shiftLeft_eq_zero (by decide)

@[simp] theorem checkRegister_withCheck (bytes : Bytes) : checkRegister (withCheck bytes) = 0 := by
  rw [withCheck, checkRegister, List.foldl_append]
  exact foldl_own _

@[simp] theorem withCheck_length (bytes : Bytes) : (withCheck bytes).length = bytes.length + 2 := by simp [withCheck]

theorem serviceTelegram_tests {node origin tag : Byte} {payload : Bytes} (code : Byte) (hn : node.toNat ≤ 48)
    (ho : origin = 0x00 ∨ origin = 0x01) (ht : tag.toNat ≤ 15) (hp : payload.length ≤ 240) :
    ServiceTests (serviceTelegram node origin tag code payload) := by
  have length : (BitVec.ofNat 8 payload.length).toNat = payload.length :=
    BitVec.toNat_ofNat .. |>.trans (Nat.mod_eq_of_lt (by omega))
  refine ⟨?_, checkRegister_withCheck _, ?_, ?_, ho, ht, hn⟩
  · simp [serviceTelegram]
  · rw [show (serviceTelegram node origin tag code payload).getD 5 0 = BitVec.ofNat 8 payload.length from rfl, length]
    simp [serviceTelegram]
    omega
  · rw [show (serviceTelegram node origin tag code payload).getD 5 0 = BitVec.ofNat 8 payload.length from rfl, length]
    exact hp

/-- Settles O8. -/
theorem sentTelegramsAreGood : Obligations.SentTelegramsAreGood := by
  unfold Obligations.SentTelegramsAreGood
  exact ⟨checkRegister_withCheck, fun node origin tag code payload hn ho ht hp => serviceTelegram_tests code hn ho ht hp,
    by decide +kernel⟩

end Sys2Proof.Machine
end

section
/-! PROOFS. What an event does at one position, told as a value: the runtime half it leaves, what becomes of the request queue,
the records and the sighting entries, and the notices it offers. Events at one position compose, and events at positions one
after another add up. -/

namespace Sys2Proof.Machine

/-! ### Acts -/

/-- What an event at a position leaves. -/
structure Act where
  run : Runtime
  queue : List Request → List Request := id
  records : Vector (Option Record) 4 → Vector (Option Record) 4 := id
  sightings : List Sighting → List Sighting := id
  notices : List Notice := []

/-- One act after another at the same position. -/
def Act.before (a b : Act) : Act :=
  { run := b.run, queue := b.queue ∘ a.queue, records := b.records ∘ a.records, sightings := b.sightings ∘ a.sightings,
    notices := a.notices ++ b.notices }

/-- `t` is `s` after an act at position `p`. -/
structure Acted (p : Pos) (a : Act) (s t : State) : Prop where
  run : t.run[p] = a.run
  others : OthersKeep p s t
  queue : t.sch.queue = a.queue s.sch.queue
  records : t.sch.records = a.records s.sch.records
  sightings : t.sightings = a.sightings s.sightings
  notices : (t.mgt.notices, t.mgt.attention) = offered a.notices s
  frame : OnlyPositionWork s t

/-- Offers one after another (R171). -/
theorem offered_append (a b : List Notice) {s t : State} (h : (t.mgt.notices, t.mgt.attention) = offered a s) :
    offered (a ++ b) s = offered b t := by
  unfold offered at h ⊢
  rw [List.foldl_append, ← h]

theorem offered_congr {s t : State} (hn : t.mgt.notices = s.mgt.notices) (ha : t.mgt.attention = s.mgt.attention)
    (l : List Notice) : offered l t = offered l s := by
  rw [offered, hn, ha, offered]

theorem OnlyPositionWork.refl (s : State) : OnlyPositionWork s s := rfl

theorem OnlyPositionWork.trans {s t u : State} (h : OnlyPositionWork s t) (k : OnlyPositionWork t u) : OnlyPositionWork s u := by
  unfold OnlyPositionWork at *
  rw [k, h]

namespace Acted

variable {p : Pos} {a b : Act} {s t u : State}

/-- Nothing is done. -/
theorem idle (p : Pos) (s : State) : Acted p { run := s.run[p] } s s := ⟨rfl, fun _ _ => rfl, rfl, rfl, rfl, rfl, rfl⟩

theorem before (h : Acted p a s u) (k : Acted p b u t) : Acted p (a.before b) s t where
  run := k.run
  others q hq := (k.others q hq).trans (h.others q hq)
  queue := by rw [k.queue, h.queue]; rfl
  records := by rw [k.records, h.records]; rfl
  sightings := by rw [k.sightings, h.sightings]; rfl
  notices := by rw [k.notices, ← offered_append a.notices b.notices h.notices]; rfl
  frame := h.frame.trans k.frame

/-- The same act under another spelling. -/
theorem congr (h : Acted p a s t) (e : b = a) : Acted p b s t := e ▸ h

theorem classes (h : Acted p a s t) : t.mgt.classes = s.mgt.classes := by rw [h.frame]
theorem cycleCount (h : Acted p a s t) : t.fwd.cycleCount = s.fwd.cycleCount := by rw [h.frame]

end Acted

theorem modRun_acted (p : Pos) (f : Runtime → Runtime) (s : State) : Acted p { run := f s.run[p] } s (modRun p f s) :=
  ⟨modRun_self p f s, fun _ hq => modRun_other hq f s, rfl, rfl, rfl, rfl, rfl⟩

/-- Offering a notice. -/
theorem addNotice_acted (p : Pos) (n : Notice) (s : State) : Acted p { run := s.run[p], notices := [n] } s (addNotice n s) := by
  obtain ⟨hnotices, hattention⟩ := addNotice_queue n s
  have hrun := addNotice_run n s
  have hsch := addNotice_sch n s
  have hsight := addNotice_sightings n s
  have frame := (addNotice_work n s).frame
  refine ⟨by rw [hrun], fun q _ => by rw [hrun], by rw [hsch]; rfl, by rw [hsch]; rfl, hsight, ?_, ?_⟩
  · rw [hnotices, hattention]
    rfl
  · unfold OnlyPositionWork
    rw [hrun, hsight, hsch]
    rw [hrun, hsight, hsch] at frame
    exact frame

/-- The notice of a verdict change at a position, as its runtime half stands (R52). -/
def changeNotice (s : State) (p : Pos) (before : Verdict) (reason : Reason) (r : Runtime) : Notice :=
  { position := p, before, after := r.verdict, reason,
    cls := (r.identity.map Identity.cls).getD 0, serial := (r.identity.map Identity.serial).getD 0, score := r.score,
    cycle := s.fwd.cycleCount.setWidth 16 }

theorem noticeFor_eq (p : Pos) (before after : Verdict) (reason : Reason) (id : Option Identity) (score : Int) (s : State) :
    noticeFor p before after reason id score s =
      { position := p, before, after, reason, cls := (id.map Identity.cls).getD 0,
        serial := (id.map Identity.serial).getD 0, score, cycle := s.fwd.cycleCount.setWidth 16 } := by
  cases id <;> rfl

/-- A verdict change is reported (R47). -/
theorem notifyChange_acted (p : Pos) (before : Verdict) (reason : Reason) (s : State) :
    Acted p { run := s.run[p], notices := if s.run[p].verdict = before then [] else [changeNotice s p before reason s.run[p]] } s
      (notifyChange p before reason s) := by
  unfold notifyChange
  dsimp only
  split
  · exact .idle p s
  · rw [noticeFor_eq]
    exact addNotice_acted p _ s

/-- A position with neither entry nor record, as SCH tests it. -/
def free (s : State) (p : Pos) : Bool := !(hasEntry s p || hasRecord s p)

theorem free_iff (s : State) (p : Pos) : free s p = true ↔ Unasked s p := by
  unfold free
  rw [Bool.not_eq_true', Bool.or_eq_false_iff]
  exact ⟨fun h => OrderlyBut.unasked_of_not_asked h.1 h.2, fun h => ⟨hasEntry_of_unasked s p h, hasRecord_of_unasked s p h⟩⟩

/-- A request of a kind is put into the queue where the position is free. -/
def askQueue (isFree : Bool) (p : Pos) (kind : RequestKind) (q : List Request) : List Request :=
  if isFree then enqueue { position := p, kind } q else q

theorem ask_acted (p : Pos) (kind : RequestKind) (round : Option RoundKind) (s : State) :
    Acted p { run := if free s p then { s.run[p] with
                pendingRequest := some kind, roundKind := round.getD s.run[p].roundKind } else s.run[p],
              queue := askQueue (free s p) p kind } s (ask p kind round s) := by
  unfold ask free askQueue
  cases h : hasEntry s p || hasRecord s p with
  | true => exact .idle p s
  | false =>
    simp only [Bool.false_eq_true, if_false, Bool.not_false, if_true]
    have asked := modRun_acted p (fun r => { r with pendingRequest := some kind, roundKind := round.getD r.roundKind }) s
    exact ⟨asked.run, asked.others, rfl, rfl, rfl, rfl, rfl⟩

/-- A position is called to CHALLENGING by a request (R21, R57). -/
def calledRuntime (isFree : Bool) (kind : RequestKind) (round : RoundKind) (r : Runtime) : Runtime :=
  if isFree then { r with phase := .challenging, sweepAge := 0, pendingRequest := some kind, roundKind := round }
  else { r with phase := .challenging, sweepAge := 0 }

theorem call_acted (p : Pos) (kind : RequestKind) (round : RoundKind) (s : State) :
    Acted p { run := calledRuntime (free s p) kind round s.run[p], queue := askQueue (free s p) p kind } s
      (ask p kind (some round) (modRun p (fun r => { r with phase := .challenging, sweepAge := 0 }) s)) := by
  refine ((modRun_acted p _ s).before (ask_acted p kind (some round) _)).congr ?_
  rw [modRun_self]
  rfl

theorem callDue_acted (p : Pos) (round : RoundKind) (s : State) :
    Acted p { run := calledRuntime (free s p) .due round s.run[p], queue := askQueue (free s p) p .due } s
      (callDue p round s) := call_acted p .due round s

theorem callNew_acted (p : Pos) (s : State) :
    Acted p { run := calledRuntime (free s p) .new .new s.run[p], queue := askQueue (free s p) p .new } s (callNew p s) :=
  call_acted p .new .new s

/-! ### Evaluation (R44, R45, R47) -/

/-- The verdict an evaluation leaves. -/
def judgedVerdict (e : ClassEntry) (r : Runtime) : Verdict :=
  if r.latch = true then r.verdict else nextVerdict e r.score r.verdict

/-- The runtime half an evaluation leaves. -/
def judgedRuntime (e : ClassEntry) (reason : Reason) (isFree : Bool) (r : Runtime) : Runtime :=
  if judgedVerdict e r = r.verdict then r
  else if calledDue r (judgedVerdict e r) = true then
    calledRuntime isFree .due .due { r with verdict := judgedVerdict e r, reason := some reason }
  else { r with verdict := judgedVerdict e r, reason := some reason }

theorem judgedRuntime_verdict (e : ClassEntry) (reason : Reason) (isFree : Bool) (r : Runtime) :
    (judgedRuntime e reason isFree r).verdict = judgedVerdict e r := by
  unfold judgedRuntime
  split
  · next h => exact h.symm
  · split
    · unfold calledRuntime
      split <;> rfl
    · rfl

theorem judgedRuntime_score (e : ClassEntry) (reason : Reason) (isFree : Bool) (r : Runtime) :
    (judgedRuntime e reason isFree r).score = r.score := by
  unfold judgedRuntime calledRuntime
  split
  · rfl
  · split
    · split <;> rfl
    · rfl

theorem judgedVerdict_step (e : ClassEntry) (r : Runtime) : VerdictStep e r.latch r.score r.verdict (judgedVerdict e r) := by
  unfold judgedVerdict
  refine ⟨fun h => ?_, fun hl hv => ?_, fun hl hv => ?_, fun hl hv => ?_⟩
  · split
    · rfl
    · next hl => rw [h.resolve_left hl]; rfl
  · rw [if_neg (by rw [hl]; decide)]
    rcases hv with hv | hv <;> rw [hv] <;> rfl
  · rw [if_neg (by rw [hl]; decide), hv]; rfl
  · rw [if_neg (by rw [hl]; decide), hv]; rfl

/-- What an evaluation with a reason leaves of a runtime half. -/
theorem judgedRuntime_evaluated (e : ClassEntry) (reason : Reason) {isFree : Bool} {unasked : Prop}
    (h : isFree = true ↔ unasked) (r : Runtime) : Evaluated e reason unasked r (judgedRuntime e reason isFree r) := by
  have hv := judgedRuntime_verdict e reason isFree r
  have changed (hc : calledDue r (judgedVerdict e r) = true) : judgedVerdict e r ≠ r.verdict := by
    unfold calledDue at hc
    exact (of_decide_eq_true hc).2.2.1
  have called (hc : calledDue r (judgedVerdict e r) = true) : judgedRuntime e reason isFree r =
      calledRuntime isFree .due .due { r with verdict := judgedVerdict e r, reason := some reason } := by
    rw [judgedRuntime, if_neg (changed hc), if_pos hc]
  refine ⟨?_, fun hk => ?_, fun hk hc => ?_, fun hc hu => ?_, fun hc hu => ?_⟩
  · rw [hv]; exact judgedVerdict_step e r
  · rw [hv] at hk
    rw [judgedRuntime, if_pos hk]
  · rw [hv] at hk hc ⊢
    rw [judgedRuntime, if_neg hk, hc]
    rfl
  · rw [hv] at hc ⊢
    rw [called hc, calledRuntime, h.2 hu]
    rfl
  · rw [hv] at hc ⊢
    rw [called hc, calledRuntime, if_neg fun hf => hu (h.1 hf)]

/-- The test of R47 as the model makes it, where the verdict changes. -/
theorem calledDue_iff {r : Runtime} {v : Verdict} (hv : v ≠ r.verdict) :
    calledDue r v = true ↔ r.phase = .held ∧ verdictFalls r.verdict v = true ∧ r.pendingRequest = none := by
  unfold calledDue verdictFalls
  simp only [decide_eq_true_eq, Bool.or_eq_true, beq_iff_eq]
  tauto

/-- The evaluation of a position with a class. -/
def evaluateAct (e : ClassEntry) (reason : Reason) (s : State) (p : Pos) (r : Runtime) : Act :=
  { run := judgedRuntime e reason (free s p) r
    queue := if calledDue r (judgedVerdict e r) = true then askQueue (free s p) p .due else id
    notices := if judgedVerdict e r = r.verdict then []
      else [changeNotice s p r.verdict reason { r with verdict := judgedVerdict e r }] }

theorem evaluate_eq {p : Pos} {s : State} {e : ClassEntry} (h : classOf s s.run[p] = some e) (reason : Reason) :
    evaluate p reason s =
      if judgedVerdict e s.run[p] = s.run[p].verdict then s
      else
        let t := notifyChange p s.run[p].verdict reason
          (modRun p (fun x => { x with verdict := judgedVerdict e s.run[p], reason := some reason }) s)
        if calledDue s.run[p] (judgedVerdict e s.run[p]) = true then callDue p .due t else t := by
  unfold evaluate
  simp only [h]
  by_cases hl : s.run[p].latch = true
  · rw [if_pos (.inl hl), if_pos (by rw [judgedVerdict, if_pos hl])]
  · rw [show judgedVerdict e s.run[p] = nextVerdict e s.run[p].score s.run[p].verdict by rw [judgedVerdict, if_neg hl]]
    by_cases hv : nextVerdict e s.run[p].score s.run[p].verdict = s.run[p].verdict
    · rw [if_pos (.inr hv), if_pos hv]
    · rw [if_neg (not_or.2 ⟨hl, hv⟩), if_neg hv]
      by_cases hc : calledDue s.run[p] (nextVerdict e s.run[p].score s.run[p].verdict) = true
      · rw [if_pos hc, if_pos ((calledDue_iff hv).1 hc)]
      · rw [if_neg hc, if_neg (mt (calledDue_iff hv).2 hc)]

/-- Notices leave a position as free as it was. -/
theorem free_congr {s t : State} (h : t.sch = s.sch) (p : Pos) : free t p = free s p := by
  unfold free hasEntry hasRecord
  rw [h]

theorem evaluate_acted {p : Pos} {s : State} {e : ClassEntry} (h : classOf s s.run[p] = some e) (reason : Reason) :
    Acted p (evaluateAct e reason s p s.run[p]) s (evaluate p reason s) := by
  rw [evaluate_eq h]
  unfold evaluateAct judgedRuntime
  by_cases hkept : judgedVerdict e s.run[p] = s.run[p].verdict
  · have uncalled : calledDue s.run[p] (judgedVerdict e s.run[p]) = false := by
      rw [hkept, calledDue]
      simp
    simp only [if_pos hkept, uncalled, Bool.false_eq_true, if_false]
    exact .idle p s
  · have changed := modRun_acted p (fun x => { x with verdict := judgedVerdict e s.run[p], reason := some reason }) s
    have reported := changed.before (notifyChange_acted p s.run[p].verdict reason _)
    have same := notifyChange_sch p s.run[p].verdict reason
      (modRun p (fun x => { x with verdict := judgedVerdict e s.run[p], reason := some reason }) s)
    have half := OrderlyBut.notifyChange_run_at p p s.run[p].verdict reason
      (modRun p (fun x => { x with verdict := judgedVerdict e s.run[p], reason := some reason }) s)
    simp only [modRun_self, if_neg hkept] at reported half
    simp only [if_neg hkept]
    by_cases hc : calledDue s.run[p] (judgedVerdict e s.run[p]) = true
    · simp only [if_pos hc]
      refine (reported.before (callDue_acted p .due _)).congr ?_
      rw [half, free_congr (same.trans rfl)]
      rfl
    · simp only [if_neg hc]
      exact reported.congr rfl

/-! ### The evaluation as the obligations read it -/

/-- One verdict's report as its offers (R47). -/
theorem VerdictReported.of_offered {s t : State} {p : Pos} {before after : Verdict} {reason : Reason} {id : Option Identity}
    {score : Int}
    (h : (t.mgt.notices, t.mgt.attention) = offered (if after = before then [] else [{
      position := p, before, after, reason, cls := (id.map Identity.cls).getD 0,
      serial := (id.map Identity.serial).getD 0, score, cycle := s.fwd.cycleCount.setWidth 16 }]) s) :
    VerdictReported s t p before after reason id score := by
  refine ⟨fun hk => ?_, fun hc => ?_⟩
  · rw [if_pos hk.symm] at h
    exact Prod.mk.inj h
  · rw [if_neg (Ne.symm hc)] at h
    exact Prod.mk.inj h

theorem evaluateAct_report {p : Pos} {s t : State} {e : ClassEntry} {reason : Reason} {r : Runtime}
    (h : Acted p (evaluateAct e reason s p r) s t) :
    VerdictReported s t p r.verdict (judgedVerdict e r) reason r.identity r.score :=
  .of_offered h.notices

/-- Settles O39: the evaluation's act, read case by case. -/
theorem verdictFollowsThresholds : Obligations.VerdictFollowsThresholds := by
  unfold Obligations.VerdictFollowsThresholds
  intro s p reason e h
  have acted := evaluate_acted h reason
  have hv : (evaluate p reason s).run[p].verdict = judgedVerdict e s.run[p] := by
    rw [acted.run]
    exact judgedRuntime_verdict _ _ _ _
  have half := judgedRuntime_evaluated e reason (free_iff s p) s.run[p]
  have run : (evaluate p reason s).run[p] = judgedRuntime e reason (free s p) s.run[p] := acted.run
  have queue : (evaluate p reason s).sch = { s.sch with
      queue := (if calledDue s.run[p] (judgedVerdict e s.run[p]) = true then askQueue (free s p) p .due else id) s.sch.queue } := by
    rw [acted.frame]
    dsimp only
    rw [acted.queue, acted.records]
    rfl
  refine ⟨evaluate p reason s, rfl, ?_, ?_, acted.others, acted.frame, fun hk => ?_, fun hc => ⟨fun hheld hfall hnone hu => ?_,
    fun hstay => ?_⟩⟩
  · rw [hv]
    exact judgedVerdict_step e s.run[p]
  · rw [hv]
    exact evaluateAct_report acted
  · rw [evaluate_eq h, if_pos (hv.symm.trans hk)]
  · rw [hv] at hc hfall ⊢
    have called : calledDue s.run[p] (judgedVerdict e s.run[p]) = true := by
      rw [calledDue]
      exact decide_eq_true ⟨hheld, hnone, hc, hfall⟩
    refine ⟨?_, ?_⟩
    · rw [queue, if_pos called, askQueue, (free_iff s p).2 hu]
      rfl
    · have := half.called (by rw [← run, hv]; exact called) hu
      rw [← run, hv] at this
      exact this
  · rw [hv] at hc hstay ⊢
    have uncalled : calledDue s.run[p] (judgedVerdict e s.run[p]) = false := by
      rw [calledDue]
      exact decide_eq_false fun ⟨hheld, _, _, hfall⟩ => hstay.elim (fun h => h hheld) fun h => hfall.elim h.1 h.2
    refine ⟨?_, ?_⟩
    · rw [queue, uncalled]
      rfl
    · have := half.changed (by rw [← run, hv]; exact hc) (by rw [← run, hv]; exact uncalled)
      rw [← run, hv] at this
      exact this

end Sys2Proof.Machine
end

section
/-! PROOFS. Acts at positions one after another, and the boundary's advance of every position (R25, R48). -/

namespace Sys2Proof.Machine

/-! ### Acts at positions in an order -/

/-- `t` is `s` after acts at the positions of a list, one after another. -/
structure ActedAll (l : List Pos) (acts : Pos → Act) (s t : State) : Prop where
  run : ∀ p ∈ l, t.run[p] = (acts p).run
  others : ∀ p : Pos, p ∉ l → t.run[p] = s.run[p]
  queue : t.sch.queue = l.foldl (fun q p => (acts p).queue q) s.sch.queue
  records : t.sch.records = l.foldl (fun v p => (acts p).records v) s.sch.records
  sightings : t.sightings = l.foldl (fun x p => (acts p).sightings x) s.sightings
  notices : (t.mgt.notices, t.mgt.attention) = offered (l.flatMap (fun p => (acts p).notices)) s
  frame : OnlyPositionWork s t

/-- Each position once, each act read off the state before the first: work at one position leaves what the others read. -/
theorem foldl_acted {f : Pos → State → State} {acts : Pos → Act} {s : State} (hat : ∀ p u, WorkAt p u (f p u))
    (hact : ∀ p u, SameAt p s u → u.fwd = s.fwd → Acted p (acts p) u (f p u)) {l : List Pos} (hl : l.Nodup) :
    ActedAll l acts s (l.foldl (fun t p => f p t) s) := by
  suffices general : ∀ u, (∀ p ∈ l, SameAt p s u) → u.fwd = s.fwd → ActedAll l acts u (l.foldl (fun t p => f p t) u) from
    general s (fun p _ => .refl p s) rfl
  induction l with
  | nil => exact fun u _ _ => ⟨by simp, fun _ _ => rfl, rfl, rfl, rfl, rfl, rfl⟩
  | cons p l ih =>
    intro u same hfwd
    obtain ⟨hp, hl⟩ := List.nodup_cons.1 hl
    have first := hact p u (same p List.mem_cons_self) hfwd
    have apart {q : Pos} (hq : q ∈ l) : q ≠ p := fun e => hp (e ▸ hq)
    obtain ⟨run, others, queue, records, sightings, notices, frame⟩ := ih hl (f p u)
      (fun q hq => (same q (List.mem_cons_of_mem _ hq)).trans (.of_work (hat p u) (apart hq)))
      ((show (f p u).fwd = u.fwd by rw [first.frame]).trans hfwd)
    refine ⟨fun q hq => ?_, fun q hq => ?_, ?_, ?_, ?_, ?_, first.frame.trans frame⟩
    · rcases List.mem_cons.1 hq with rfl | hq
      · exact (others q hp).trans first.run
      · exact run q hq
    · obtain ⟨hqp, hq⟩ := not_or.1 (mt List.mem_cons.2 hq)
      exact (others q hq).trans (first.others q hqp)
    · exact queue.trans (by rw [first.queue]; rfl)
    · exact records.trans (by rw [first.records]; rfl)
    · exact sightings.trans (by rw [first.sightings]; rfl)
    · rw [List.flatMap_cons, offered_append _ _ first.notices]
      exact notices

/-! ### What the acts of a list add up to -/

theorem foldl_kept {α : Type} {f : Pos → α → α} (h : ∀ p, f p = id) (l : List Pos) (x : α) :
    l.foldl (fun x p => f p x) x = x := by
  induction l generalizing x with
  | nil => rfl
  | cons p l ih =>
    rw [List.foldl_cons, h p]
    exact ih x

theorem ActedAll.records_kept {l : List Pos} {acts : Pos → Act} {s t : State} (h : ActedAll l acts s t)
    (hk : ∀ p, (acts p).records = id) : t.sch.records = s.sch.records := h.records.trans (foldl_kept hk l _)

theorem ActedAll.sightings_kept {l : List Pos} {acts : Pos → Act} {s t : State} (h : ActedAll l acts s t)
    (hk : ∀ p, (acts p).sightings = id) : t.sightings = s.sightings := h.sightings.trans (foldl_kept hk l _)

/-- A choice of nothing or one element, position by position. -/
theorem flatMap_ite {α β : Type} (test : α → Bool) (g : α → β) (l : List α) :
    l.flatMap (fun p => if test p = true then [g p] else []) = (l.filter test).map g := by
  induction l with
  | nil => rfl
  | cons p l ih =>
    rw [List.flatMap_cons, ih]
    by_cases h : test p = true
    · rw [if_pos h, List.filter_cons_of_pos h]; rfl
    · rw [if_neg h, List.filter_cons_of_neg h]; rfl

/-- DUE entries join at the tail. -/
theorem foldl_due (calls : Pos → Bool) (l : List Pos) (q : List Request) :
    l.foldl (fun q p => if calls p = true then enqueue { position := p, kind := .due } q else q) q =
      q ++ (l.filter calls).map (fun p => { position := p, kind := .due }) := by
  induction l generalizing q with
  | nil => simp
  | cons p l ih =>
    rw [List.foldl_cons, ih]
    by_cases h : calls p = true
    · rw [if_pos h, List.filter_cons_of_pos h]
      simp [enqueue]
    · rw [if_neg h, List.filter_cons_of_neg h]

/-- What becomes of the queue at a position: its entries go, or an entry joins the IDENT and NEW ones, or neither. -/
def queueStep (left asks : Pos → Bool) (kind : RequestKind) (q : List Request) (p : Pos) : List Request :=
  if left p = true then q.filter (fun e => e.position != p)
  else if asks p = true then enqueue { position := p, kind } q else q

/-- The entries of the positions that are left go, and IDENT or NEW entries join behind those that stand (R56). -/
theorem foldl_queueStep {left asks : Pos → Bool} {kind : RequestKind} (hk : kind ≠ .due)
    (hne : ∀ p, left p = true → asks p = false) {l : List Pos} (hl : l.Nodup) {q urgent due : List Request}
    (hq : QueueGroups q urgent due) :
    l.foldl (queueStep left asks kind) q =
      urgent.filter (fun e => !(decide (e.position ∈ l) && left e.position)) ++
        (l.filter asks).map (fun p => { position := p, kind }) ++
        due.filter (fun e => !(decide (e.position ∈ l) && left e.position)) := by
  induction l generalizing q urgent due with
  | nil => simp [hq.1]
  | cons p l ih =>
    obtain ⟨hp, hl⟩ := List.nodup_cons.1 hl
    rw [List.foldl_cons]
    by_cases hleft : left p = true
    · have groups : QueueGroups (queueStep left asks kind q p) (urgent.filter (fun e => e.position != p))
          (due.filter (fun e => e.position != p)) := by
        rw [queueStep, if_pos hleft, hq.1, List.filter_append]
        exact ⟨rfl, fun e he => hq.2.1 e (List.mem_filter.1 he).1, fun e he => hq.2.2 e (List.mem_filter.1 he).1⟩
      have cut (m : List Request) : (m.filter (fun e => e.position != p)).filter
            (fun e => !(decide (e.position ∈ l) && left e.position)) =
          m.filter (fun e => !(decide (e.position ∈ p :: l) && left e.position)) := by
        rw [List.filter_filter]
        refine List.filter_congr fun e _ => ?_
        by_cases he : e.position = p
        · simp [he, hleft]
        · simp [he]
      rw [ih hl groups, cut, cut, List.filter_cons_of_neg (by rw [hne p hleft]; decide)]
    · have stays (m : List Request) : m.filter (fun e => !(decide (e.position ∈ p :: l) && left e.position)) =
          m.filter (fun e => !(decide (e.position ∈ l) && left e.position)) := by
        refine List.filter_congr fun e _ => ?_
        by_cases he : e.position = p
        · simp [he, hleft]
        · simp [he]
      rw [stays, stays]
      by_cases hasks : asks p = true
      · have groups : QueueGroups (queueStep left asks kind q p) (urgent ++ [{ position := p, kind }]) due := by
          rw [queueStep, if_neg hleft, if_pos hasks, enqueue_urgent _ hq hk]
          refine ⟨rfl, fun e he => ?_, hq.2.2⟩
          rcases List.mem_append.1 he with he | he
          · exact hq.2.1 e he
          · rw [List.mem_singleton.1 he]; exact hk
        rw [ih hl groups, List.filter_cons_of_pos hasks, List.filter_append]
        simp [hp]
      · rw [queueStep, if_neg hleft, if_neg hasks, ih hl hq, List.filter_cons_of_neg hasks]

/-! ### Decay steps (R48) -/

theorem decayScore_moves (step : Nat) (c : Int) : MovedTowardZero step c (decayScore step c) := by
  unfold MovedTowardZero decayScore
  split <;> omega

theorem decays_iff (r : Runtime) : decays r = true ↔ Advancing r := by
  unfold decays Advancing
  simp only [Bool.and_eq_true, Bool.or_eq_true, beq_iff_eq, Bool.not_eq_true', Option.isSome_iff_ne_none, and_assoc]

/-- A runtime half moved to its decay step. -/
def decayed (e : ClassEntry) (r : Runtime) : Runtime := { r with score := decayScore e.decayStep r.score, decayCount := 0 }

/-- The advance of a decay count, with the decay step it brings. -/
def decayAct (s : State) (p : Pos) (r : Runtime) : Act :=
  if decays r = true then
    match classOf s r with
    | none => { run := r }
    | some e =>
      if e.decayPeriod ≠ 0 ∧ e.decayPeriod ≤ min 65535 (r.decayCount + 1) then evaluateAct e .decay s p (decayed e r)
      else { run := { r with decayCount := min 65535 (r.decayCount + 1) } }
  else { run := r }

theorem advanceDecay_acted (p : Pos) (s : State) : Acted p (decayAct s p s.run[p]) s (advanceDecay p s) := by
  unfold decayAct advanceDecay
  dsimp only
  split
  · cases hcls : classOf s s.run[p] with
    | none => exact .idle p s
    | some e =>
      have hcls' : classOf (modRun p (decayed e) s) (modRun p (decayed e) s).run[p] = some e := by
        rw [modRun_self]
        exact hcls
      dsimp only
      split
      · refine ((modRun_acted p (decayed e) s).before (evaluate_acted hcls' .decay)).congr ?_
        rw [modRun_self]
        rfl
      · exact modRun_acted p (fun x => { x with decayCount := min 65535 (s.run[p].decayCount + 1) }) s
  · exact .idle p s

/-- A boundary's advance brings a runtime half to its decay step. -/
def DecaysNow (s : State) (r : Runtime) (e : ClassEntry) : Prop :=
  Advancing r ∧ classOf s r = some e ∧ e.decayPeriod ≠ 0 ∧ e.decayPeriod ≤ min 65535 (r.decayCount + 1)

theorem decayAct_due {s : State} {p : Pos} {r : Runtime} {e : ClassEntry} (h : DecaysNow s r e) :
    decayAct s p r = evaluateAct e .decay s p (decayed e r) := by
  obtain ⟨hadv, hcls, hdue⟩ := h
  simp only [decayAct, if_pos ((decays_iff r).2 hadv), hcls]
  exact if_pos hdue

/-- Without a decay step the count rises, or stands. -/
theorem decayAct_undue {s : State} {p : Pos} {r : Runtime} (h : ∀ e, ¬ DecaysNow s r e) : ∃ counted : Nat,
    ((∃ e, Advancing r ∧ classOf s r = some e) → counted = min 65535 (r.decayCount + 1)) ∧
    (¬ Advancing r → counted = r.decayCount) ∧ decayAct s p r = { run := { r with decayCount := counted } } := by
  unfold decayAct
  split
  · next hadv =>
    have hadv := (decays_iff r).1 hadv
    cases hcls : classOf s r with
    | none =>
      refine ⟨r.decayCount, ?_, fun _ => rfl, rfl⟩
      rintro ⟨e, -, he⟩
      cases he
    | some e =>
      dsimp only
      split
      · next hdue => exact absurd ⟨hadv, hcls, hdue⟩ (h e)
      · exact ⟨min 65535 (r.decayCount + 1), fun _ => rfl, fun hn => absurd hadv hn, rfl⟩
  · next hadv =>
    refine ⟨r.decayCount, ?_, fun _ => rfl, rfl⟩
    rintro ⟨_, ha, -⟩
    exact absurd ((decays_iff r).2 ha) hadv

/-! ### One event of one position (LOG 4) -/

/-- The DUE call of one evaluation, as the obligations list it. -/
theorem dueCalls_single {p : Pos} {s t : State} {v : Verdict} (hv : t.run[p].verdict = v) :
    DueCalls [p] s t (if calledDue s.run[p] v = true then askQueue (free s p) p .due [] else []) := by
  intro test htest
  have : test p = (calledDue s.run[p] v && free s p) := by
    rw [Bool.eq_iff_iff, htest p, hv, Bool.and_eq_true, free_iff]
  rw [List.filter_cons, List.filter_nil, this]
  unfold askQueue
  cases calledDue s.run[p] v <;> cases free s p <;> rfl

theorem askQueue_due (isFree : Bool) (p : Pos) (q : List Request) :
    askQueue isFree p .due q = q ++ askQueue isFree p .due [] := by
  unfold askQueue
  cases isFree
  · simp
  · rfl

theorem decayDue_iff (s : State) (p : Pos) :
    decayDue s p = true ↔ s.device = .running ∧ s.fwd.lineState = .cycling ∧ ∃ e, DecayIsDue s p e := by
  unfold decayDue
  rw [Bool.and_eq_true, Bool.and_eq_true, Bool.and_eq_true, beq_iff_eq, beq_iff_eq, decays_iff, and_assoc, and_assoc]
  refine and_congr_right fun _ => and_congr_right fun _ => ?_
  unfold DecayIsDue
  cases h : classOf s s.run[p] with
  | none => simp
  | some e => simp

/-- Settles O13: the decay step is the evaluation of the moved score. -/
theorem decayStepMovesTheScoreTowardZero : Obligations.DecayStepMovesTheScoreTowardZero := by
  unfold Obligations.DecayStepMovesTheScoreTowardZero
  intro s p hlive
  have event : exec (.decayStep p) s = .next (if decayDue s p = true then advanceDecay p s else s) := whenLive_of_live hlive _
  refine ⟨fun e hd hc hdue => ?_, fun h => ?_⟩
  · have acted := (advanceDecay_acted p s).congr (decayAct_due hdue).symm
    rw [event, if_pos ((decayDue_iff s p).2 ⟨hd, hc, e, hdue⟩)]
    generalize advanceDecay p s = t at acted
    have hv : t.run[p].verdict = judgedVerdict e (decayed e s.run[p]) := by
      rw [acted.run]
      exact judgedRuntime_verdict _ _ _ _
    refine ⟨t, decayScore e.decayStep s.run[p].score, _, rfl, decayScore_moves _ _, ?_, ?_, dueCalls_single hv, ?_,
      acted.others, acted.sightings, acted.frame⟩
    · rw [acted.run]
      exact judgedRuntime_evaluated e .decay (free_iff s p) _
    · rw [hv]
      exact evaluateAct_report acted
    · rw [acted.frame]
      dsimp only
      rw [acted.queue, acted.records]
      unfold evaluateAct
      dsimp only
      rw [show calledDue (decayed e s.run[p]) = calledDue s.run[p] from rfl]
      split
      · rw [askQueue_due]; rfl
      · simp
  · rw [event, if_neg fun hd => ?_]
    obtain ⟨hd, hc, e, he⟩ := (decayDue_iff s p).1 hd
    rcases h with h | h | h
    · rw [h] at hd; cases hd
    · rw [h] at hc; cases hc
    · exact h e he

/-! ### The advance of a position at a boundary (R25) -/

/-- The sweep age of a HELD position without the latch rises. -/
def swept (r : Runtime) : Runtime :=
  if r.phase = .held ∧ r.latch = false then { r with sweepAge := min 65535 (r.sweepAge + 1) } else r

theorem advanceSweep_acted (p : Pos) (s : State) : Acted p { run := swept s.run[p] } s (advanceSweep p s) := by
  unfold advanceSweep swept
  dsimp only
  split
  · exact modRun_acted p (fun x => { x with sweepAge := min 65535 (x.sweepAge + 1) }) s
  · exact .idle p s

/-- The sweep age stands apart from all that a decay step reads. -/
theorem swept_eq (r : Runtime) : swept r = { r with
    sweepAge := if r.phase = .held ∧ r.latch = false then min 65535 (r.sweepAge + 1) else r.sweepAge } := by
  unfold swept
  split <;> rfl

theorem decaysNow_swept (s : State) (r : Runtime) (e : ClassEntry) : DecaysNow s (swept r) e ↔ DecaysNow s r e := by
  rw [swept_eq]
  rfl

/-- An evaluation reads of the rest of the state whether the position is free, and the cycle count. -/
theorem evaluateAct_congr {s t : State} {p : Pos} (hf : free t p = free s p) (hc : t.fwd.cycleCount = s.fwd.cycleCount)
    (e : ClassEntry) (reason : Reason) (r : Runtime) : evaluateAct e reason t p r = evaluateAct e reason s p r := by
  unfold evaluateAct changeNotice
  rw [hf, hc]

theorem SameAt.free_eq {p : Pos} {s t : State} (h : SameAt p s t) : free t p = free s p := by
  unfold free
  rw [h.entry, h.record]

theorem decayAct_congr {s t : State} {p : Pos} (hf : free t p = free s p) (hm : t.mgt.classes = s.mgt.classes)
    (hc : t.fwd.cycleCount = s.fwd.cycleCount) (r : Runtime) : decayAct t p r = decayAct s p r := by
  have cls : classOf t r = classOf s r := by
    unfold classOf
    rw [hm]
  unfold decayAct
  rw [cls]
  simp only [evaluateAct_congr hf hc]

/-- What a boundary's advance leaves of a position. -/
def advanceAct (s : State) (p : Pos) : Act := decayAct s p (swept s.run[p])

/-- The advance of a position, read off the state before the boundary's work. -/
theorem advancePosition_acted {p : Pos} {s u : State} (h : SameAt p s u) (hfwd : u.fwd = s.fwd) :
    Acted p (advanceAct s p) u (advancePosition p u) := by
  have first := advanceSweep_acted p u
  refine (first.before (advanceDecay_acted p (advanceSweep p u))).congr ?_
  have same : free (advanceSweep p u) p = free u p := by
    unfold free hasEntry hasRecord
    rw [first.queue, first.records]
    rfl
  rw [first.run, decayAct_congr (s := s) (same.trans h.free_eq) (first.classes.trans h.classes)
    (first.cycleCount.trans (by rw [hfwd])), h.run]
  rfl

/-- All positions advance, each once, in the order of the free choice. -/
theorem advance_all {s : State} {l : List Pos} (hl : l.Nodup) :
    ActedAll l (advanceAct s) s (l.foldl (fun t p => advancePosition p t) s) :=
  foldl_acted advancePosition_at (fun _ _ => advancePosition_acted) hl

/-! ### The acts of a boundary as the obligations read them -/

theorem advanceAct_due {s : State} {p : Pos} {e : ClassEntry} (h : DecayIsDue s p e) :
    advanceAct s p = evaluateAct e .decay s p (decayed e (swept s.run[p])) :=
  decayAct_due ((decaysNow_swept s s.run[p] e).2 h)

theorem advanceAct_undue {s : State} {p : Pos} (h : ∀ e, ¬ DecayIsDue s p e) : ∃ counted : Nat,
    ((∃ e, Advancing s.run[p] ∧ classOf s s.run[p] = some e) → counted = min 65535 (s.run[p].decayCount + 1)) ∧
    (¬ Advancing s.run[p] → counted = s.run[p].decayCount) ∧
    advanceAct s p = { run := { swept s.run[p] with decayCount := counted } } := by
  have := decayAct_undue (p := p) fun e he => h e ((decaysNow_swept s s.run[p] e).1 he)
  rw [swept_eq] at this
  rw [advanceAct, swept_eq]
  exact this

/-- The queue and the notices of a position's advance, told by the verdict it leaves. -/
theorem advanceAct_calls (s : State) (p : Pos) :
    (advanceAct s p).queue = (fun q => if (calledDue s.run[p] (advanceAct s p).run.verdict && free s p) = true
        then enqueue { position := p, kind := .due } q else q) ∧
      (advanceAct s p).records = id ∧ (advanceAct s p).sightings = id ∧
      (advanceAct s p).notices = if ((advanceAct s p).run.verdict != s.run[p].verdict) = true
        then [{ noticeOf s p (advanceAct s p).run.verdict .decay with score := (advanceAct s p).run.score }] else [] := by
  by_cases h : ∃ e, DecayIsDue s p e
  · obtain ⟨e, he⟩ := h
    have hv : (advanceAct s p).run.verdict = judgedVerdict e (decayed e (swept s.run[p])) := by
      rw [advanceAct_due he]
      exact judgedRuntime_verdict _ _ _ _
    have hs : (advanceAct s p).run.score = (decayed e (swept s.run[p])).score := by
      rw [advanceAct_due he]
      exact judgedRuntime_score _ _ _ _
    have called (v : Verdict) : calledDue (decayed e (swept s.run[p])) v = calledDue s.run[p] v := by
      rw [swept_eq]
      rfl
    have before : (decayed e (swept s.run[p])).verdict = s.run[p].verdict := by
      rw [swept_eq]
      rfl
    have ident : (decayed e (swept s.run[p])).identity = s.run[p].identity := by
      rw [swept_eq]
      rfl
    rw [hv, hs, advanceAct_due he]
    unfold evaluateAct
    dsimp only
    rw [called, before]
    refine ⟨?_, rfl, rfl, ?_⟩
    · funext q
      unfold askQueue
      cases calledDue s.run[p] (judgedVerdict e (decayed e (swept s.run[p]))) <;> cases free s p <;> rfl
    · simp only [bne_iff_ne, ne_eq, ite_not]
      split
      · rfl
      · unfold changeNotice noticeOf
        rw [ident]
  · obtain ⟨counted, -, -, he⟩ := advanceAct_undue (not_exists.1 h)
    have hv : (advanceAct s p).run.verdict = s.run[p].verdict := by
      rw [he, swept_eq]
    rw [hv, he]
    have uncalled : calledDue s.run[p] s.run[p].verdict = false := by simp [calledDue]
    refine ⟨?_, rfl, rfl, ?_⟩
    · funext q
      rw [uncalled]
      rfl
    · simp

/-- Each position's advance, and the boundary's requests and notices in one order. -/
theorem advance_boundary {s t : State} {l : List Pos} (hl : l.Nodup) (hall : ∀ p, p ∈ l) (h : ActedAll l (advanceAct s) s t)
    (n : Nat) : BoundaryAdvance s { t with freeIndex := n } := by
  have run (p : Pos) : t.run[p] = (advanceAct s p).run := h.run p (hall p)
  refine ⟨fun p hp r hr => ?_, fun p e he => ?_, ⟨l, (l.filter fun p => calledDue s.run[p] t.run[p].verdict && free s p).map
    (fun p => { position := p, kind := .due }), hl, hall, fun test ht => ?_, ?_, ?_⟩, ?_⟩
  · subst hr
    obtain ⟨counted, hrises, hstays, he⟩ := advanceAct_undue hp
    refine ⟨if s.run[p].phase = .held ∧ s.run[p].latch = false then min 65535 (s.run[p].sweepAge + 1) else s.run[p].sweepAge,
      counted, fun hs => if_pos hs, fun hs => if_neg hs, hrises, hstays, ?_⟩
    show t.run[p] = _
    rw [run p, he, swept_eq]
  · have hl : s.run[p].latch = false := he.1.2.2
    refine ⟨decayScore e.decayStep s.run[p].score, decayScore_moves _ _, ?_⟩
    show Evaluated e .decay (Unasked s p) _ t.run[p]
    rw [run p, advanceAct_due he]
    have := judgedRuntime_evaluated e .decay (free_iff s p) (decayed e (swept s.run[p]))
    rw [swept_eq] at this ⊢
    simp only [hl, and_true] at this ⊢
    exact this
  · have : test = fun p => calledDue s.run[p] t.run[p].verdict && free s p := by
      funext p
      rw [Bool.eq_iff_iff, ht p, Bool.and_eq_true, free_iff]
    rw [this]
  · show t.sch.queue = _
    rw [h.queue, ← foldl_due]
    congr 1
    funext q p
    rw [(advanceAct_calls s p).1, run p]
  · show (t.mgt.notices, t.mgt.attention) = _
    rw [h.notices, changeNotices, ← flatMap_ite]
    congr 1
    refine List.flatMap_congr fun p _ => ?_
    rw [(advanceAct_calls s p).2.2.2, ← run p]
  · have records := h.records_kept fun p => (advanceAct_calls s p).2.1
    have sightings := h.sightings_kept fun p => (advanceAct_calls s p).2.2.1
    rw [h.frame]
    dsimp only
    rw [records, sightings]

end Sys2Proof.Machine
end

section
/-! PROOFS. The cycle path (07, 08, 11): a good cycle telegram, its boundary, the start count, and the telegram sent for it. -/

namespace Sys2Proof.Machine

/-! ### The tests of R133 and R134 -/

theorem cycleFraming_of_cycleTests {framing : Framing} {body : Bytes} (h : CycleTests framing body) :
    cycleFraming framing body = some (if body.getD 3 0 = 4 then .short else .long) := by
  obtain ⟨check, header, length, slots, size⟩ := h
  have good : checkGood (kindCycle :: body) = true := beq_iff_eq.2 check
  have agrees : lengthAgrees body = true := by
    simp only [lengthAgrees, CycleHeader.telegramLength, cycleHeader_slotCount, cycleHeader_slotSize, Bool.and_eq_true,
      decide_eq_true_eq, beq_iff_eq]
    exact ⟨header, length⟩
  simp only [cycleFraming, cycleHeader_slotCount, cycleHeader_slotSize]
  rw [if_pos ⟨good, agrees, slots⟩]
  rcases size with ⟨hf, hsize⟩ | ⟨hf, hsize⟩
  · rw [hsize]
    cases framing
    · rfl
    · rfl
    · exact absurd rfl hf
  · rw [hsize]
    cases framing
    · rfl
    · exact absurd rfl hf
    · rfl

theorem exec_cycle {s : State} {body : Bytes} {portFree : Bool} (hlive : s.live = true) (h : CycleTests s.fwd.framing body) :
    exec (.cycle body portFree) s =
      .next (gateAndSend body portFree (boundaryWork (atBoundary (body.getD 3 0) s))) := by
  refine (whenLive_of_live hlive _).trans ?_
  rw [takeCycle, cycleFraming_of_cycleTests h]
  rfl

/-! ### The telegram sent on port D (R124, R125) -/

/-- Slots of one length, one behind another. -/
theorem slots_length {f : Nat → Bytes} {size n : Nat} (hf : ∀ k < n, (f k).length = size) :
    ((List.range n).flatMap f).length = n * size := by
  induction n with
  | zero => simp
  | succ n ih =>
    rw [List.range_succ, List.flatMap_append, List.length_append, ih fun k hk => hf k (by omega), List.flatMap_singleton,
      hf n (by omega), Nat.succ_mul]

theorem slot_of_slots {f : Nat → Bytes} {size n : Nat} (hf : ∀ k < n, (f k).length = size) {k : Nat} (hk : k < n) :
    (((List.range n).flatMap f).drop (k * size)).take size = f k := by
  induction n with
  | zero => omega
  | succ n ih =>
    have length := slots_length (n := n) fun k hk => hf k (by omega)
    rw [List.range_succ, List.flatMap_append, List.flatMap_singleton]
    rcases Nat.lt_succ_iff_lt_or_eq.1 hk with hlt | rfl
    · have : k * size + size ≤ n * size := by rw [← Nat.succ_mul]; exact Nat.mul_le_mul_right _ hlt
      rw [List.drop_append_of_le_length (by rw [length]; omega),
        List.take_append_of_le_length (by rw [List.length_drop, length]; omega)]
      exact ih (fun k hk => hf k (by omega)) hlt
    · rw [List.drop_append_of_le_length (by rw [length]), List.drop_eq_nil_of_le (by rw [length]), List.nil_append,
        ← hf k (by omega), List.take_length]

/-- A gated slot keeps its length. -/
theorem gatedSlot_length (s : State) (g : CycleHeader) (body : Bytes) (k : Nat) :
    (gatedSlot s g body k).length = (slotBytes g k body).length := by
  unfold gatedSlot
  dsimp only
  split
  · split
    · exact rewriteSlot_length _ _ _ _ _
    · rfl
  · rfl

theorem clampCeiling_eq {s : State} {p : Pos} {ceiling : Nat} (he : ∀ e, classOf s s.run[p] = some e → ceiling = e.clampValue)
    (hn : s.run[p].classIndex = none → ceiling = s.mgt.setup.unknownClamp) : clampCeiling s p = ceiling := by
  unfold clampCeiling
  split
  · next e h => exact (he e h).symm
  · next h =>
    refine (hn ?_).symm
    cases hc : s.run[p].classIndex with
    | none => rfl
    | some i => rw [classOf, hc] at h; cases h

section
variable {s : State} {framing : Framing} {body : Bytes} (h : CycleTests framing body)
include h

theorem gatedSlot_size (s : State) {k : Nat} (hk : k < (body.getD 2 0).toNat) :
    (gatedSlot s (cycleHeader body) body k).length = (body.getD 3 0).toNat := by
  have hlength := h.length
  have : k * (body.getD 3 0).toNat + (body.getD 3 0).toNat ≤ (body.getD 2 0).toNat * (body.getD 3 0).toNat := by
    rw [← Nat.succ_mul]
    exact Nat.mul_le_mul_right _ hk
  rw [gatedSlot_length, slotBytes, field, cycleHeader_slotSize, List.length_take, List.length_drop]
  omega

/-- The gated bytes are those of the telegram up to its check sequence. -/
theorem gatedBytes_length (s : State) : (gatedBytes s body).length = body.length - 1 := by
  have hlength := h.length
  have hheader := h.header
  unfold gatedBytes
  dsimp only
  rw [cycleHeader_slotCount, List.cons_append, List.length_cons, List.length_append, List.length_take,
    slots_length fun k hk => gatedSlot_size h s hk]
  omega

/-- The gated bytes head the telegram sent, changed or not (R125). -/
theorem gatedTelegram_take (s : State) : (gatedTelegram s body).take (body.length - 1) = gatedBytes s body := by
  have length := gatedBytes_length h s
  unfold gatedTelegram
  dsimp only
  split
  · next hsame => rw [← length]; exact hsame.symm
  · rw [withCheck, ← length, List.take_left']
    rfl

theorem gatedTelegram_length (s : State) : (gatedTelegram s body).length = body.length + 1 := by
  have length := gatedBytes_length h s
  have hheader := h.header
  unfold gatedTelegram
  dsimp only
  split
  · rfl
  · rw [withCheck_length, length]
    omega

theorem gatedTelegram_good (s : State) : checkRegister (gatedTelegram s body) = 0 := by
  unfold gatedTelegram
  dsimp only
  split
  · exact h.check
  · exact checkRegister_withCheck _

/-- A slot of the telegram sent. -/
theorem gatedTelegram_slot (s : State) {k : Nat} (hk : k < (body.getD 2 0).toNat) :
    ((gatedTelegram s body).drop (5 + k * (body.getD 3 0).toNat)).take (body.getD 3 0).toNat =
      gatedSlot s (cycleHeader body) body k := by
  have hlength := h.length
  have hheader := h.header
  have fits : k * (body.getD 3 0).toNat + (body.getD 3 0).toNat ≤ (body.getD 2 0).toNat * (body.getD 3 0).toNat := by
    rw [← Nat.succ_mul]
    exact Nat.mul_le_mul_right _ hk
  have head : (kindCycle :: body.take 4).length = 5 := by rw [List.length_cons, List.length_take]; omega
  have cut : ((gatedTelegram s body).drop (5 + k * (body.getD 3 0).toNat)).take (body.getD 3 0).toNat =
      ((gatedBytes s body).drop (5 + k * (body.getD 3 0).toNat)).take (body.getD 3 0).toNat := by
    rw [← gatedTelegram_take h s, List.drop_take, List.take_take, min_eq_left (by omega)]
  rw [cut, gatedBytes]
  rw [cycleHeader_slotCount, ← head, ← List.drop_drop, List.drop_left, slot_of_slots (fun k hk => gatedSlot_size h s hk) hk]

/-- The telegram sent, slot by slot (R120, R124, R125). -/
theorem gatedTelegram_gated (s : State) : GatedSlotBySlot s body (gatedTelegram s body) := by
  have hheader := h.header
  refine ⟨gatedTelegram_length h s, ?_, fun p size ceiling hsize hcount hset he hn => ?_, fun k size hsize hk hout => ?_,
    fun hsame => ?_⟩
  · have : (gatedTelegram s body).take 5 = (gatedBytes s body).take 5 := by
      have := h.length
      have := Nat.le_mul_of_pos_right (body.getD 2 0).toNat (show 0 < (body.getD 3 0).toNat by
        rcases h.size with ⟨-, e⟩ | ⟨-, e⟩ <;> rw [e] <;> decide)
      have := h.slots
      rw [← gatedTelegram_take h s, List.take_take, min_eq_left (by omega)]
    rw [this, gatedBytes]
    rw [List.take_append_of_le_length (by rw [List.length_cons, List.length_take]; omega)]
    rw [List.take_of_length_le (by rw [List.length_cons, List.length_take]; omega)]
    rfl
  · subst hsize
    rw [gatedTelegram_slot h s hcount, gatedSlot]
    dsimp only
    rw [dif_pos p.isLt, if_pos hset, clampCeiling_eq he hn, slotBytes, field, cycleHeader_slotSize]
  · subst hsize
    rw [gatedTelegram_slot h s hk, gatedSlot]
    dsimp only
    have plain : slotBytes (cycleHeader body) k body = (body.drop (4 + k * (body.getD 3 0).toNat)).take (body.getD 3 0).toNat := by
      rw [slotBytes, field, cycleHeader_slotSize]
    split
    · rw [if_neg (by omega), plain]
    · exact plain
  · rw [gatedTelegram_take h s] at hsame
    unfold gatedTelegram
    dsimp only
    rw [if_pos]
    · rfl
    · rw [gatedBytes_length h s, hsame]
      have := h.length
      rw [show body.length - 1 = body.length - 2 + 1 by omega, List.take_succ_cons]
      rfl

end

/-- A gate action reads of the state the runtime half, the device state and the management unit. -/
theorem gateAction_congr {s t : State} (hr : t.run = s.run) (hd : t.device = s.device) (hm : t.mgt = s.mgt) (p : Pos) :
    gateAction t p = gateAction s p := by
  unfold gateAction classOf
  simp only [hr, hd, hm]

/-- The telegram sent reads of the state the framing, the configurations, the runtime halves, the device state and the
management unit. -/
theorem gatedTelegram_congr {s t : State} (hf : t.fwd.framing = s.fwd.framing) (hc : t.configs = s.configs)
    (hr : t.run = s.run) (hd : t.device = s.device) (hm : t.mgt = s.mgt) (body : Bytes) :
    gatedTelegram t body = gatedTelegram s body := by
  have ceiling (p : Pos) : clampCeiling t p = clampCeiling s p := by
    unfold clampCeiling classOf
    simp only [hr, hm]
  have slot : gatedSlot t (cycleHeader body) body = gatedSlot s (cycleHeader body) body := by
    funext k
    unfold gatedSlot
    simp only [gateAction_congr hr hd hm, ceiling, hf, hc, hm]
  unfold gatedTelegram gatedBytes
  simp only [slot]

/-! ### The boundary's work -/

theorem replaceEntry_frame (x : EditItem) (s : State) : replaceEntry x s = { s with
    configs := (replaceEntry x s).configs, mgt := { s.mgt with classes := (replaceEntry x s).mgt.classes } } := by
  cases x <;> rfl

theorem applyEdits_start (s : State) : (applyEdits s).device = s.device ∧ (applyEdits s).startCount = s.startCount := by
  have replaced : (overItems replaceEntry s.mgt.edits s).device = s.device ∧
      (overItems replaceEntry s.mgt.edits s).startCount = s.startCount :=
    ⟨foldl_keeps (part := State.device) (fun x s => by rw [replaceEntry_frame]) s.mgt.edits s,
      foldl_keeps (part := State.startCount) (fun x s => by rw [replaceEntry_frame]) s.mgt.edits s⟩
  have rest := (((overItems_work _ (stepTwo_work s.configs) s.mgt.edits (overItems replaceEntry s.mgt.edits s)).trans
    (overItems_work _ stepThree_work s.mgt.edits _)).trans (overItems_work _ stepFour_work s.mgt.edits _)).trans
    (overItems_work _ (stepFive_work s.mgt.classes) s.mgt.edits _)
  rw [applyEdits_eq]
  exact ⟨rest.device.trans replaced.1, rest.startCount.trans replaced.2⟩

theorem applyEvent_start (s : State) : (applyEvent s).device = s.device ∧ (applyEvent s).startCount = s.startCount := by
  unfold applyEvent
  split
  · exact applyEdits_start s
  · exact ⟨rfl, rfl⟩

theorem advanceAll_starting {s : State} (h : s.device = .starting) : advanceAll s = s := by
  simp only [advanceAll, h]

/-- In RUNNING the advance is that of every position. -/
theorem advanceAll_advances {s : State} (h : s.device = .running) : BoundaryAdvance s (advanceAll s) := by
  simp only [advanceAll, h]
  exact advance_boundary (positionsBy_nodup _) (mem_positionsBy _) (advance_all (positionsBy_nodup _)) _

theorem BoundaryAdvance.start {s t : State} (h : BoundaryAdvance s t) : t.device = s.device ∧ t.startCount = s.startCount := by
  rw [h.frame]
  exact ⟨rfl, rfl⟩

theorem advanceAll_start (s : State) :
    (advanceAll s).device = s.device ∧ (advanceAll s).startCount = s.startCount := by
  cases hd : s.device with
  | starting => rw [advanceAll_starting hd]; exact ⟨hd, rfl⟩
  | running => rw [← hd]; exact (advanceAll_advances hd).start

/-- The start count and the passage (R195, R196). -/
theorem countStart_eq (s : State) : countStart s = { s with
    startCount := if s.device = .starting then min 8 (s.startCount + 1) else s.startCount
    device := if s.device = .running ∨ (7 ≤ s.startCount ∧ s.mgt.setupLock = true) then .running else .starting } := by
  unfold countStart
  cases hd : s.device with
  | running =>
    rw [if_neg (show DeviceState.running ≠ .starting by decide), if_pos (Or.inl rfl)]
    exact congrArg (fun d => { s with device := d }) hd
  | starting =>
    have full : min 8 (s.startCount + 1) = 8 ↔ 7 ≤ s.startCount := by omega
    simp only [passage, Config.startCycles, true_and, full, reduceCtorEq, false_or, if_true]
    split <;> rfl

/-- Where no set is applied, the boundary is the advance and the start count. -/
theorem boundaryWork_plain {s : State} (h : s.mgt.edits = [] ∨ s.mgt.hold = true) :
    boundaryWork s = countStart (advanceAll s) := by
  unfold boundaryWork
  rw [if_neg]
  rintro ⟨hhold, hedits⟩
  rcases h with h | h
  · exact hedits h
  · rw [h] at hhold; cases hhold

/-- A set is applied before or after the advance, and the start count follows. -/
theorem boundaryWork_applied {s : State} (hedits : s.mgt.edits ≠ []) (hhold : s.mgt.hold = false) :
    ∃ b u : State, b = { s with freeIndex := b.freeIndex } ∧
      ((s.device = .starting ∧ u = applyEvent b) ∨ (s.device = .running ∧ ∃ v : State,
        (BoundaryAdvance b v ∧ u = applyEvent v) ∨ (v = applyEvent b ∧ BoundaryAdvance v u))) ∧
      boundaryWork s = countStart u ∧ u.device = s.device ∧ u.startCount = s.startCount := by
  obtain ⟨b, hb⟩ : ∃ b : State, b = { s with freeIndex := s.freeIndex + 1 } := ⟨_, rfl⟩
  have hdevice : b.device = s.device := by rw [hb]
  have hcount : b.startCount = s.startCount := by rw [hb]
  have work : boundaryWork s = countStart (applyAndAdvance (Config.applicationFirst s.freeIndex) b) := by
    rw [hb]
    exact if_pos ⟨hhold, hedits⟩
  have applied := applyEvent_start b
  refine ⟨b, applyAndAdvance (Config.applicationFirst s.freeIndex) b, by rw [hb], ?_, work, ?_⟩
  · cases hd : s.device with
    | starting =>
      refine .inl ⟨rfl, ?_⟩
      unfold applyAndAdvance
      rw [advanceAll_starting (applied.1.trans (hdevice.trans hd)), advanceAll_starting (hdevice.trans hd), ite_self]
    | running =>
      refine .inr ⟨rfl, ?_⟩
      unfold applyAndAdvance
      split
      · exact ⟨applyEvent b, .inr ⟨rfl, advanceAll_advances (applied.1.trans (hdevice.trans hd))⟩⟩
      · exact ⟨advanceAll b, .inl ⟨advanceAll_advances (hdevice.trans hd), rfl⟩⟩
  · rw [← hdevice, ← hcount]
    unfold applyAndAdvance
    split
    · exact ⟨(advanceAll_start _).1.trans applied.1, (advanceAll_start _).2.trans applied.2⟩
    · have applied := applyEvent_start (advanceAll b)
      exact ⟨applied.1.trans (advanceAll_start _).1, applied.2.trans (advanceAll_start _).2⟩

/-! ### The gating stage (R117, R126, R135, R136) -/

theorem fieldNat_two {body : Bytes} (h : 2 ≤ body.length) :
    fieldNat 0 2 body = (body.getD 0 0).toNat * 256 + (body.getD 1 0).toNat := by
  obtain ⟨a, b, rest, rfl⟩ : ∃ a b rest, body = a :: b :: rest := by
    match body, h with
    | a :: b :: rest, _ => exact ⟨a, b, rest, rfl⟩
  exact beNat_pair a b

theorem expectationOf_eq {body : Bytes} (h : 2 ≤ body.length) : expectationOf body =
    { cycleNumber := BitVec.ofNat 16 ((body.getD 0 0).toNat * 256 + (body.getD 1 0).toNat),
      slotCount := (body.getD 2 0).toNat, slotSize := (body.getD 3 0).toNat } := by
  rw [← fieldNat_two h, ← cycleHeader_slotCount, ← cycleHeader_slotSize]
  rfl

theorem gateAndSend_eq (body : Bytes) (portFree : Bool) (s : State) :
    gateAndSend body portFree s = { s with gatedMap := gatedMapOf s, fwd := { s.fwd with
      expectation := if portFree || s.fwd.dSending.isNone then some (expectationOf body) else s.fwd.expectation
      dSending := if portFree || s.fwd.dSending.isNone then some (gatedTelegram s body) else s.fwd.dSending
      dWaiting := if portFree || s.fwd.dSending.isNone then none
        else some { bytes := gatedTelegram s body, expectation := expectationOf body } } } := by
  unfold gateAndSend readyCycle
  by_cases h : portFree = true ∨ s.fwd.dSending = none
  · have sent : (portFree || s.fwd.dSending.isNone) = true := by
      rw [Bool.or_eq_true, Option.isNone_iff_eq_none]
      exact h
    simp only [sent, if_true]
    exact if_pos h
  · have waits : (portFree || s.fwd.dSending.isNone) = false := by
      rw [← Bool.not_eq_true, Bool.or_eq_true, Option.isNone_iff_eq_none]
      exact h
    simp only [waits, Bool.false_eq_true, if_false]
    exact if_neg h

/-- What a good cycle telegram leaves, over the state `u` before the start count. -/
theorem cycle_leaves {s u : State} {body : Bytes} (portFree : Bool)
    (work : boundaryWork (atBoundary (body.getD 3 0) s) = countStart u) (device : u.device = s.device)
    (count : u.startCount = s.startCount) :
    ∃ t, gateAndSend body portFree (countStart u) = t ∧
      (∀ p : Pos, t.gatedMap[p] = (gateAction t p != .pass)) ∧ gatedTelegram t body = gatedTelegram (countStart u) body ∧
      t.startCount = (if s.device = .starting then min 8 (s.startCount + 1) else s.startCount) ∧
      t.device = (if s.device = .running ∨ (7 ≤ s.startCount ∧ s.mgt.setupLock = true) then .running else .starting) ∧
      t = { u with device := t.device, startCount := t.startCount, gatedMap := t.gatedMap, fwd := t.fwd } ∧
      BoundaryWork (atBoundary (body.getD 3 0) s) (countStart u) := by
  have boundary := boundaryWork_boundary (atBoundary (body.getD 3 0) s)
  rw [work] at boundary
  have lock : u.mgt.setupLock = s.mgt.setupLock := by
    have := boundary.setupLock
    rw [countStart_eq] at this
    exact this
  have counted := countStart_eq u
  rw [device, count, lock] at counted
  have left := gateAndSend_eq body portFree (countStart u)
  obtain ⟨t, ht⟩ : ∃ t, gateAndSend body portFree (countStart u) = t := ⟨_, rfl⟩
  rw [ht] at left
  have frame : t = { countStart u with gatedMap := t.gatedMap, fwd := t.fwd } := by rw [left]
  have run : t.run = (countStart u).run := by rw [frame]
  have state : t.device = (countStart u).device := by rw [frame]
  have mgt : t.mgt = (countStart u).mgt := by rw [frame]
  refine ⟨t, ht, fun p => ?_, ?_, ?_, ?_, ?_, boundary⟩
  · rw [gateAction_congr run state mgt, show t.gatedMap = gatedMapOf (countStart u) by rw [left]]
    exact Vector.getElem_ofFn p.isLt
  · exact gatedTelegram_congr (by rw [left]) (by rw [frame]) run state mgt body
  · rw [show t.startCount = (countStart u).startCount by rw [frame], counted]
  · rw [state, counted]
  · rw [frame, counted]

theorem cycle_fwd {s t w : State} {body : Bytes} {portFree : Bool} (h : CycleTests s.fwd.framing body)
    (hw : w.fwd = (atBoundary (body.getD 3 0) s).fwd) (ht : gateAndSend body portFree w = t)
    (same : gatedTelegram t body = gatedTelegram w body) :
    let expected : Expectation :=
      { cycleNumber := BitVec.ofNat 16 ((body.getD 0 0).toNat * 256 + (body.getD 1 0).toNat),
        slotCount := (body.getD 2 0).toNat, slotSize := (body.getD 3 0).toNat }
    let sent : Bool := portFree || s.fwd.dSending.isNone
    t.fwd = { s.fwd with
      framing := if body.getD 3 0 = 4 then .short else .long, cycleCount := s.fwd.cycleCount + 1,
      lineState := .cycling, stillTimer := some 0, gap := none,
      expectation := if sent then some expected else none,
      dSending := if sent then some (gatedTelegram t body) else s.fwd.dSending,
      dWaiting := if sent then none else some { bytes := gatedTelegram t body, expectation := expected } } := by
  have left := gateAndSend_eq body portFree w
  rw [ht, expectationOf_eq (by have := h.header; omega), hw, ← same] at left
  exact congrArg State.fwd left

/-! ### The obligations of the cycle path -/

/-- Settles O10: the boundary's work, then the gating stage. -/
theorem goodCycleTelegramIsGatedAndSent : Obligations.GoodCycleTelegramIsGatedAndSent := by
  unfold Obligations.GoodCycleTelegramIsGatedAndSent
  intro s body portFree hlive h
  obtain ⟨u, work, device, count, applied⟩ : ∃ u : State,
      boundaryWork (atBoundary (body.getD 3 0) s) = countStart u ∧ u.device = s.device ∧ u.startCount = s.startCount ∧
      (s.mgt.edits ≠ [] → s.mgt.hold = false → ∃ b : State,
        b = { atBoundary (body.getD 3 0) s with freeIndex := b.freeIndex } ∧
        ((s.device = .starting ∧ u = applyEvent b) ∨
          (s.device = .running ∧ ∃ v : State,
            (BoundaryAdvance b v ∧ u = applyEvent v) ∨ (v = applyEvent b ∧ BoundaryAdvance v u)))) := by
    by_cases hset : s.mgt.edits ≠ [] ∧ s.mgt.hold = false
    · obtain ⟨b, u, hb, hu, work, device, count⟩ :=
        boundaryWork_applied (s := atBoundary (body.getD 3 0) s) hset.1 hset.2
      exact ⟨u, work, device, count, fun _ _ => ⟨b, hb, hu⟩⟩
    · have plain : s.mgt.edits = [] ∨ s.mgt.hold = true := by
        rw [not_and_or, not_not, Bool.not_eq_false] at hset
        exact hset
      have start : (advanceAll (atBoundary (body.getD 3 0) s)).device = s.device ∧
          (advanceAll (atBoundary (body.getD 3 0) s)).startCount = s.startCount := advanceAll_start _
      exact ⟨_, boundaryWork_plain plain, start.1, start.2, fun he hh => absurd ⟨he, hh⟩ hset⟩
  obtain ⟨t, ht, map, same, hcount, hdevice, frame, boundary⟩ := cycle_leaves portFree work device count
  refine ⟨t, by rw [exec_cycle hlive h, work, ht], map, gatedTelegram_good h t, gatedTelegram_gated h t, hcount, hdevice,
    fun he hh => ?_, cycle_fwd h boundary.fwd ht same, ?_⟩
  · obtain ⟨b, hb, hu⟩ := applied he hh
    have index : t.freeIndex = u.freeIndex := by rw [frame]
    exact ⟨b, u, hb, hu, by rw [index]; exact frame⟩
  · have left := gateAndSend_eq body portFree (countStart u)
    rw [ht, boundary.frame] at left
    rw [left]
    rfl

/-- Settles O11: without a set to apply, STARTING leaves a boundary the start count alone. -/
theorem startCountBringsThePassage : Obligations.StartCountBringsThePassage := by
  unfold Obligations.StartCountBringsThePassage
  intro s hlive
  have event : exec .passageToRunning s = .next (passage s) := whenLive_of_live hlive _
  refine ⟨fun body portFree h hd hplain => ?_, fun hd hcount hlock => ?_, fun hstands => ?_⟩
  · have work : boundaryWork (atBoundary (body.getD 3 0) s) = countStart (atBoundary (body.getD 3 0) s) :=
      (boundaryWork_plain (s := atBoundary (body.getD 3 0) s) hplain).trans (congrArg countStart (advanceAll_starting hd))
    obtain ⟨t, ht, -, -, hcount, hdevice, frame, -⟩ := cycle_leaves portFree work rfl rfl
    refine ⟨t, by rw [exec_cycle hlive h, work, ht], by rw [hcount, if_pos hd], by rw [hdevice, hd]; simp, ?_⟩
    conv_lhs => rw [frame]
    rfl
  · rw [event, passage, if_pos ⟨hd, hcount, hlock⟩]
  · rw [event, passage, if_neg]
    rintro ⟨hd, hcount, hlock⟩
    rcases hstands with h | h | h
    · rw [hd] at h; cases h
    · exact h hcount
    · rw [hlock] at h; cases h

/-- Settles O12: without a set to apply, RUNNING leaves a boundary the advance of every position. -/
theorem boundaryAdvancesEveryPosition : Obligations.BoundaryAdvancesEveryPosition := by
  unfold Obligations.BoundaryAdvancesEveryPosition
  intro s body portFree hlive h hd hplain
  have advance := advanceAll_advances (s := atBoundary (body.getD 3 0) s) hd
  have work := boundaryWork_plain (s := atBoundary (body.getD 3 0) s) hplain
  obtain ⟨t, ht, -, -, hcount, hdevice, frame, -⟩ := cycle_leaves portFree work advance.start.1 advance.start.2
  have count : t.startCount = s.startCount := by rw [hcount, hd]; rfl
  have device : t.device = .running := by rw [hdevice, if_pos (.inl hd)]
  refine ⟨t, _, by rw [exec_cycle hlive h, work, ht], advance, ?_, count, device⟩
  conv_lhs => rw [frame, count, device, ← hd, ← show (atBoundary (body.getD 3 0) s).device = s.device from rfl,
    ← show (atBoundary (body.getD 3 0) s).startCount = s.startCount from rfl, ← advance.start.1, ← advance.start.2]

end Sys2Proof.Machine
end

section
/-! PROOFS. The ports and the line state (08): what port U sends, who is served on port D, and the still timeout. -/

namespace Sys2Proof.Machine

/-! ### Port U and the waiting cycle telegram (R135, R136, R141, R149) -/

theorem nextSendingU_eq (s : State) : nextSendingU s =
    { s with fwd := { s.fwd with uSending := s.fwd.uReady.head?, uReady := s.fwd.uReady.tail } } := by
  unfold nextSendingU
  cases h : s.fwd.uReady with
  | nil => exact congrArg (fun l => { s with fwd := { s.fwd with uSending := none, uReady := l } }) h
  | cons u rest => rfl

theorem endSendingU_eq (s : State) : endSendingU s = { s with fwd := { s.fwd with
    gap := if s.fwd.lineState = .cycling ∧ s.fwd.uSending.any (fun u => u.opensGap) = true
      then some { used := 0, slots := s.mgt.setup.gapSlots, verifierSlots := s.mgt.setup.verifierSlots }
      else s.fwd.gap } } := by
  unfold endSendingU
  cases h : s.fwd.uSending with
  | none => rw [if_neg (by simp)]
  | some u =>
    dsimp only [Option.any_some]
    by_cases hu : u.opensGap = true
    · rw [if_pos hu, openGap]
      simp only [hu, and_true]
      split
      · rfl
      · rfl
    · rw [if_neg hu, if_neg fun hc => hu hc.2]

/-- Settles O24: the end of a sending on each port. -/
theorem portsSendWhatWaits : Obligations.PortsSendWhatWaits := by
  unfold Obligations.PortsSendWhatWaits
  refine ⟨fun s hlive => ?_, fun s hlive => ?_⟩
  · have event : exec .portUTransmit s = .next (freePortU s) := whenLive_of_live hlive _
    rw [event, freePortU, nextSendingU_eq, endSendingU_eq]
  · have event : exec .cycleTelegramSend s = .next (sendWaiting s) := whenLive_of_live hlive _
    refine ⟨fun w hw => ?_, fun hw => ?_⟩
    · rw [event, sendWaiting, hw]
      rfl
    · rw [event, sendWaiting, hw]

/-! ### Sharing port D (R141 to R143) -/

theorem masterHasWork_of_cons {s : State} {m : Bytes} {rest : List Bytes} (h : s.fwd.masterQueue = m :: rest) :
    masterHasWork s = true := by
  rw [masterHasWork, h]; rfl

theorem masterHasWork_of_nil {s : State} (h : s.fwd.masterQueue = []) : masterHasWork s = false := by
  rw [masterHasWork, h]; rfl

theorem schHasWork_of_none {s : State} (h : s.device = .starting ∨ choose s = none) : schHasWork s = false := by
  unfold schHasWork
  rcases h with h | h <;> rw [h] <;> simp

theorem schHasWork_of_choice {s : State} {c : Choice} (hd : s.device = .running) (hc : choose s = some c) :
    schHasWork s = true := (schHasWork_iff s).2 ⟨hd, c, hc⟩

/-- The master is served: it is preferred and has work, or it alone has. -/
theorem sideServed_master {preferred : Side} {s : State} (hm : masterHasWork s = true)
    (h : preferred = .master ∨ schHasWork s = false) : sideServed preferred s = some .master := by
  unfold sideServed
  cases preferred with
  | master => exact if_pos hm
  | verifier =>
    have := h.resolve_left (by decide)
    simp only [this, hm, Bool.false_eq_true, if_false, if_true]

/-- The verifier is served: it is preferred and has work, or it alone has. -/
theorem sideServed_verifier {preferred : Side} {s : State} (hv : schHasWork s = true)
    (h : preferred = .verifier ∨ masterHasWork s = false) : sideServed preferred s = some .verifier := by
  unfold sideServed
  cases preferred with
  | verifier => exact if_pos hv
  | master =>
    have := h.resolve_left (by decide)
    simp only [this, hv, Bool.false_eq_true, if_false, if_true]

theorem sideServed_none {preferred : Side} {s : State} (hm : masterHasWork s = false) (hv : schHasWork s = false) :
    sideServed preferred s = none := by
  unfold sideServed
  cases preferred <;> simp only [hm, hv, Bool.false_eq_true, if_false]

theorem serveMaster_eq {s : State} {m : Bytes} {rest : List Bytes} (h : s.fwd.masterQueue = m :: rest) :
    serve .master s =
      { s with fwd := { s.fwd with masterQueue := rest, lastServed := .master, dSending := some m } } := by
  rw [serve, serveMaster, h]
  rfl

theorem serveVerifier_eq {s : State} {c : Choice} (h : choose s = some c) :
    serve .verifier s = fill c { s with fwd := { s.fwd with lastServed := .verifier } } := by
  rw [serve, serveVerifier, h]

theorem owner_master {g : Gap} (h : g.used + 1 + g.verifierSlots ≤ g.slots) : g.owner = .master := if_pos (by omega)

theorem owner_verifier {g : Gap} (h : g.slots < g.used + 1 + g.verifierSlots) : g.owner = .verifier := if_neg (by omega)

/-- An opportunity that the open gap offers. -/
theorem takeOpportunity_offered {s : State} {g : Gap} (hg : s.fwd.gap = some g) (hc : s.fwd.lineState = .cycling)
    (hw : s.fwd.dWaiting = none) (hu : g.used < g.slots) :
    takeOpportunity s = match sideServed g.owner s with
      | none => s
      | some side => serve side { s with fwd := { s.fwd with gap := some { g with used := g.used + 1 } } } := by
  unfold takeOpportunity
  rw [hg]
  exact if_pos ⟨hc, hw, hu⟩

/-- A turn while the line is STILL. -/
theorem takeTurn_offered {s : State} (hs : s.fwd.lineState = .still) (hw : s.fwd.dWaiting = none) :
    takeTurn s = match sideServed s.fwd.lastServed.other s with
      | none => s
      | some side => serve side s := by
  exact if_pos ⟨hs, hw⟩

/-- No opportunity is offered without an open gap of a CYCLING line that is not used up, nor before a waiting cycle telegram. -/
theorem takeOpportunity_none {s : State} (h : s.fwd.gap = none ∨ s.fwd.lineState = .still ∨ s.fwd.dWaiting ≠ none ∨
    ∃ g, s.fwd.gap = some g ∧ g.slots ≤ g.used) : takeOpportunity s = s := by
  unfold takeOpportunity
  cases hg : s.fwd.gap with
  | none => rfl
  | some g =>
    refine if_neg ?_
    rintro ⟨hc, hw, hu⟩
    rcases h with h | h | h | ⟨g', h, hused⟩
    · rw [h] at hg; cases hg
    · rw [h] at hc; cases hc
    · exact h hw
    · rw [h] at hg
      obtain rfl : g' = g := Option.some.inj hg
      omega

theorem takeTurn_none {s : State} (h : s.fwd.lineState = .cycling ∨ s.fwd.dWaiting ≠ none) : takeTurn s = s := by
  refine if_neg ?_
  rintro ⟨hs, hw⟩
  rcases h with h | h
  · rw [h] at hs; cases hs
  · exact h hw

/-- Settles O23: the side served is the preferred one where it has work, else the other. -/
theorem opportunitiesAndTurnsAreShared : Obligations.OpportunitiesAndTurnsAreShared := by
  unfold Obligations.OpportunitiesAndTurnsAreShared
  refine ⟨fun s hlive hw => ?_, fun s hw => ⟨whenLive_of_fixed (takeOpportunity_none (.inr (.inr (.inl hw)))),
    whenLive_of_fixed (takeTurn_none (.inr hw))⟩⟩
  have gapEvent : exec .gapOpportunity s = .next (takeOpportunity s) := whenLive_of_live hlive _
  have turnEvent : exec .stillTurn s = .next (takeTurn s) := whenLive_of_live hlive _
  refine ⟨fun g hg hc hu => ?_, fun h => ?_, fun hs => ?_, fun hc => ?_⟩
  · rw [gapEvent, takeOpportunity_offered hg hc hw hu]
    refine ⟨fun m rest hq h => ?_, fun c hd hchoice h => ?_, fun hq h => ?_⟩
    · rw [sideServed_master (masterHasWork_of_cons hq) (h.imp owner_master schHasWork_of_none)]
      exact congrArg _ (serveMaster_eq (s := { s with fwd := { s.fwd with gap := some { g with used := g.used + 1 } } }) hq)
    · rw [sideServed_verifier (schHasWork_of_choice hd hchoice) (h.imp owner_verifier masterHasWork_of_nil)]
      exact congrArg _ (serveVerifier_eq ((choose_fwd s _).trans hchoice))
    · rw [sideServed_none (masterHasWork_of_nil hq) (schHasWork_of_none h)]
  · rw [gapEvent, takeOpportunity_none]
    rcases h with h | h | h
    · exact .inl h
    · exact .inr (.inl h)
    · exact .inr (.inr (.inr h))
  · rw [turnEvent, takeTurn_offered hs hw]
    refine ⟨fun m rest hq h => ?_, fun c hd hchoice h => ?_, fun hq h => ?_⟩
    · rw [sideServed_master (masterHasWork_of_cons hq) (h.imp (fun e => by rw [e]; rfl) schHasWork_of_none)]
      exact congrArg _ (serveMaster_eq hq)
    · rw [sideServed_verifier (schHasWork_of_choice hd hchoice) (h.imp (fun e => by rw [e]; rfl) masterHasWork_of_nil)]
      exact congrArg _ (serveVerifier_eq hchoice)
    · rw [sideServed_none (masterHasWork_of_nil hq) (schHasWork_of_none h)]
  · rw [turnEvent, takeTurn_none (.inl hc)]

/-! ### The still timeout (R140, R165) -/

theorem stillDue_iff (s : State) : stillDue s = true ↔
    s.fwd.lineState = .cycling ∧ ∃ n, s.fwd.stillTimer = some n ∧ s.mgt.setup.stillTimeout ≤ n := by
  unfold stillDue
  rw [Bool.and_eq_true, beq_iff_eq]
  refine and_congr_right fun _ => ?_
  cases s.fwd.stillTimer with
  | none => simp
  | some n => simp

theorem applyEvent_plain {s : State} (h : s.mgt.edits = [] ∨ s.mgt.hold = true) : applyEvent s = s := by
  refine if_neg ?_
  rintro ⟨hhold, hedits⟩
  rcases h with h | h
  · exact hedits h
  · rw [h] at hhold; cases hhold

theorem applyEvent_edits {s : State} (he : s.mgt.edits ≠ []) (hh : s.mgt.hold = false) : (applyEvent s).mgt.edits = [] := by
  rw [applyEvent, if_pos ⟨hh, he⟩, applyEdits_edits]

/-- Settles O22: the line becomes STILL, and the application follows. -/
theorem stillTimeoutStopsTheLine : Obligations.StillTimeoutStopsTheLine := by
  unfold Obligations.StillTimeoutStopsTheLine
  intro s hlive
  have event : exec .stillTimeout s = .next (becomeStill s) := whenLive_of_live hlive _
  refine ⟨fun n hc hn hdue => ?_, fun h => ?_⟩
  · obtain ⟨b, hb⟩ : ∃ b : State, b = { s with fwd := { s.fwd with lineState := .still, gap := none, expectation := none } } :=
      ⟨_, rfl⟩
    have still : becomeStill s = applyEvent b := by
      rw [becomeStill, if_pos ((stillDue_iff s).2 ⟨hc, n, hn, hdue⟩), hb]
    have mgt : b.mgt = s.mgt := by rw [hb]
    have boundary := applyEvent_boundary b
    have fwd : (applyEvent b).fwd = b.fwd := boundary.fwd
    have whole : { s with fwd := b.fwd } = b := by rw [hb]
    refine ⟨applyEvent b, by rw [event, still], by rw [fwd, hb], by rw [boundary.kst, hb], fun h => ?_, fun he hh => ?_⟩
    · rw [fwd, whole, applyEvent_plain (by rw [mgt]; exact h)]
    · rw [fwd, whole]
      exact ⟨rfl, applyEvent_edits (by rw [mgt]; exact he) (by rw [mgt]; exact hh)⟩
  · rw [event, becomeStill, if_neg]
    intro hdue
    obtain ⟨hc, n, hn, hle⟩ := (stillDue_iff s).1 hdue
    rcases h with h | h | ⟨m, h, hlt⟩
    · rw [h] at hc; cases hc
    · rw [h] at hn; cases hn
    · rw [h] at hn
      obtain rfl : m = n := Option.some.inj hn
      omega

end Sys2Proof.Machine
end

section
/-! PROOFS. Returns (08): the status slot, the telegram that goes upstream, and what the inputs of a taken return do. -/

namespace Sys2Proof.Machine

/-! ### Sets of positions and counts of verdicts (R53, R153) -/

/-- The number whose bits below `k` are those of a predicate. -/
def bitsBelow (has : Nat → Bool) (k : Nat) : Nat := (List.range k).foldl (fun a i => a + flagBit (has i) i) 0

theorem bitsBelow_succ (has : Nat → Bool) (k : Nat) : bitsBelow has (k + 1) = 2 ^ k * (has k).toNat + bitsBelow has k := by
  rw [bitsBelow, List.range_succ, List.foldl_append]
  cases h : has k <;> simp [flagBit, bitsBelow, h, Nat.add_comm]

theorem bitsBelow_lt (has : Nat → Bool) (k : Nat) : bitsBelow has k < 2 ^ k := by
  induction k with
  | zero => exact Nat.one_pos
  | succ k ih =>
    rw [bitsBelow_succ, Nat.pow_succ]
    cases has k <;> simp <;> omega

theorem bitsBelow_testBit (has : Nat → Bool) {k i : Nat} (hi : i < k) : (bitsBelow has k).testBit i = has i := by
  induction k with
  | zero => omega
  | succ k ih =>
    rw [bitsBelow_succ, Nat.testBit_two_pow_mul_add _ (bitsBelow_lt has k)]
    split
    · next h => exact ih h
    · obtain rfl : i = k := by omega
      cases has i <;> simp

/-- Each position stands at its bit (R153). -/
theorem positionSet_testBit (has : Pos → Bool) (p : Pos) : (beNat (positionSet has)).testBit p.val = has p := by
  have sum : (List.finRange 48).foldl (fun a i => a + flagBit (has i) i.val) 0 =
      bitsBelow (fun i => if h : i < 48 then has ⟨i, h⟩ else false) 48 := by
    rw [bitsBelow, ← List.map_coe_finRange_eq_range, List.foldl_map]
    congr 1
    funext a i
    rw [dif_pos i.isLt]
  rw [positionSet, sum, beNat_be_of_lt 6 _ (bitsBelow_lt _ 48), bitsBelow_testBit _ p.isLt, dif_pos p.isLt]

theorem positionSet_length (has : Pos → Bool) : (positionSet has).length = 6 := be_length _ _

theorem run_toList (s : State) : s.run.toList = (List.finRange 48).map (fun p => s.run[p]) := by
  refine List.ext_getElem (by simp) fun i _ hi => ?_
  simp

theorem countVerdict_eq (test : Verdict → Bool) (s : State) :
    countVerdict test s = ((List.finRange 48).filter (fun p => test s.run[p].verdict)).length := by
  rw [countVerdict, run_toList, List.countP_map, List.countP_eq_length_filter]
  rfl

theorem countVerdict_lt (test : Verdict → Bool) (s : State) : countVerdict test s < 256 := by
  rw [countVerdict_eq]
  exact Nat.lt_of_le_of_lt (List.length_filter_le _ _) (by simp)

/-! ### The status slot (R151) -/

/-- A number as one byte of a field. -/
theorem be_one {n : Nat} : be 1 n = [BitVec.ofNat 8 n] := by simp [be]

theorem ofNat_toNat {n : Nat} (h : n < 256) : (BitVec.ofNat 8 n).toNat = n := by
  rw [BitVec.toNat_ofNat, Nat.mod_eq_of_lt h]

theorem KeyOp.code_le (op : KeyOp) : op.code ≤ 4 := by cases op <;> simp [KeyOp.code]

theorem KeyResult.code_le (result : KeyResult) : result.code ≤ 5 := by cases result <;> decide

/-- The bits of the flags byte. -/
theorem flags_bits (running hold lock summed damaged full : Bool) (g : Framing) :
    let flags := BitVec.ofNat 8 (flagBit running 7 + g.code * 32 + flagBit hold 4 + flagBit lock 3 + flagBit summed 2 +
      flagBit damaged 1 + flagBit full 0)
    flags.getLsbD 7 = running ∧ flags.extractLsb' 5 2 = BitVec.ofNat 2 g.code ∧ flags.getLsbD 4 = hold ∧
      flags.getLsbD 3 = lock ∧ flags.getLsbD 2 = summed ∧ flags.getLsbD 1 = damaged ∧ flags.getLsbD 0 = full := by
  revert running hold lock summed damaged full
  cases g <;> decide

/-- No flag is latched without its mask bit (R173). -/
theorem summary_eq_false_iff (flags mask : Attention) : summary flags mask = false ↔
    (flags.notice = true → mask.notice = true) ∧ (flags.overrun = true → mask.overrun = true) ∧
      (flags.keyDone = true → mask.keyDone = true) ∧ (flags.keyMissing = true → mask.keyMissing = true) ∧
      (flags.framing = true → mask.framing = true) := by
  have one (a b : Bool) : (a && !b) = false ↔ (a = true → b = true) := by cases a <;> cases b <;> decide
  simp only [summary, Bool.or_eq_false_iff, one, and_assoc]

/-- Settles O16: the bytes of the slot one by one. -/
theorem statusSlotShowsTheState : Obligations.StatusSlotShowsTheState := by
  unfold Obligations.StatusSlotShowsTheState
  intro s damaged hnotices
  obtain ⟨hrun, hframing, hhold, hlock, hsummed, hdamaged, hfull⟩ := flags_bits (s.device = .running) s.mgt.hold
    s.mgt.setupLock (summary s.mgt.attention s.mgt.mask) damaged
    (s.fwd.masterQueue.length = Config.masterQueueCapacity) s.fwd.framing
  have number (test : Verdict → Bool) : (BitVec.ofNat 8 (countVerdict test s)).toNat =
      ((List.finRange 48).filter (fun p => test s.run[p].verdict)).length := by
    rw [ofNat_toNat (countVerdict_lt test s), countVerdict_eq]
  refine ⟨statusFlags damaged s, BitVec.ofNat 8 s.mgt.notices.length, BitVec.ofNat 8 (genuineCount s),
    BitVec.ofNat 8 (adverseCount s), BitVec.ofNat 8 (undecidedCount s), keyStoreByte s.kst,
    BitVec.ofNat 8 (s.fwd.cycleCount.toNat / 256), BitVec.ofNat 8 s.fwd.cycleCount.toNat,
    positionSet (fun p => s.gatedMap[p]), ?_, ?_, ?_, ?_, ?_, hhold, hlock, ?_, hdamaged, ?_, ofNat_toNat (by omega),
    ?_, ?_, ?_, ?_, ?_, positionSet_length _, fun p => positionSet_testBit _ p⟩
  · simp [statusSlot, be]
  · exact (iff_of_eq (congrArg (· = true) hrun)).trans decide_eq_true_iff
  · rw [statusFlags, hframing]; cases s.fwd.framing <;> decide
  · rw [statusFlags, hframing]; cases s.fwd.framing <;> decide
  · rw [statusFlags, hframing]; cases s.fwd.framing <;> decide
  · rw [statusFlags, hsummed]; exact summary_eq_false_iff _ _
  · exact (iff_of_eq (congrArg (· = true) hfull)).trans decide_eq_true_iff
  · rw [genuineCount, number]
    congr 2
  · rw [adverseCount, number]
    congr 2
    funext p
    cases s.run[p].verdict <;> rfl
  · rw [undecidedCount, number]
    congr 2
  · have hop := s.kst.op.code_le
    have hresult := s.kst.lastResult.code_le
    rw [keyStoreByte, ofNat_toNat (by omega), Nat.mul_comm]
    congr 1
  · have := beNat_be 2 s.fwd.cycleCount.toNat
    rw [show be 2 s.fwd.cycleCount.toNat = [BitVec.ofNat 8 (s.fwd.cycleCount.toNat / 256), BitVec.ofNat 8 s.fwd.cycleCount.toNat]
      by simp [be], beNat_pair] at this
    exact this

/-! ### The telegram upstream (R137, R138) -/

theorem returnMatches_iff (e : Expectation) (body : Bytes) : returnMatches e body = true ↔ ReturnTests e body := by
  simp only [returnMatches, lengthAgrees, CycleHeader.telegramLength, cycleHeader_slotCount, cycleHeader_slotSize,
    Bool.and_eq_true, decide_eq_true_eq, beq_iff_eq]
  refine ⟨fun ⟨⟨hcheck, hheader, hlength⟩, he⟩ => ?_, fun ⟨hcheck, hheader, hlength, hnumber, hslots, hsize⟩ => ?_⟩
  · rw [expectationOf_eq (by omega)] at he
    subst he
    refine ⟨beq_iff_eq.1 hcheck, hheader, hlength, ?_, rfl, rfl⟩
    rw [BitVec.toNat_ofNat]
    have := (body.getD 0 0).isLt
    have := (body.getD 1 0).isLt
    omega
  · refine ⟨⟨beq_iff_eq.2 hcheck, hheader, by rw [← hslots, ← hsize]; exact hlength⟩, ?_⟩
    rw [expectationOf_eq (by omega), ← hnumber, ← hslots, ← hsize, BitVec.ofNat_toNat, BitVec.setWidth_eq]

/-- A return goes upstream behind what is ready, with the status slot as the state stands (R149, R151). -/
theorem forwardReturn_sendsUp (damaged opensGap : Bool) (body : Bytes) (s : State) :
    SendsUp s (forwardReturn damaged opensGap body s)
      { bytes := withCheck (0x02 :: body.take (body.length - 2) ++ [0x0E] ++ statusSlot damaged s), opensGap } := by
  have bytes : upstreamReturn damaged body s =
      withCheck (0x02 :: body.take (body.length - 2) ++ [0x0E] ++ statusSlot damaged s) := by
    rw [upstreamReturn, trailer, be_one, List.append_assoc]
    rfl
  rw [← bytes]
  exact emitU_sendsUp _ _ _

/-- The status slot reads nothing of port U. -/
theorem SendsUp.statusSlot_eq {u t : State} {x : Upstream} (h : SendsUp u t x) (damaged : Bool) :
    statusSlot damaged t = statusSlot damaged u := by
  rw [h.frame]
  rfl

theorem takeReturn_matched {s : State} {e : Expectation} {body : Bytes} (he : s.fwd.expectation = some e)
    (h : ReturnTests e body) : takeReturn body s =
      forwardReturn false true body (takeInputs body { s with fwd := { s.fwd with expectation := none } }) := by
  simp only [takeReturn, he]
  exact if_pos ((returnMatches_iff e body).2 h)

theorem takeInputs_starting (body : Bytes) {s : State} (h : s.device = .starting) : takeInputs body s = s := by
  simp only [takeInputs, h]

theorem takeInputs_running (body : Bytes) {s : State} (h : s.device = .running) : takeInputs body s =
    { (positionsBy (Config.handlingRank s.freeIndex)).foldl (fun t p => handleInput p (inputOf body p) t) s with
      freeIndex := s.freeIndex + 1 } := by
  simp only [takeInputs, h]
  rfl

/-- Inputs touch the positions and the free index. -/
theorem takeInputs_frame (body : Bytes) (s : State) : takeInputs body s = { s with
    freeIndex := (takeInputs body s).freeIndex, run := (takeInputs body s).run, sightings := (takeInputs body s).sightings,
    sch := { s.sch with queue := (takeInputs body s).sch.queue, records := (takeInputs body s).sch.records },
    mgt := { s.mgt with notices := (takeInputs body s).mgt.notices, attention := (takeInputs body s).mgt.attention } } := by
  obtain ⟨u, n, hu, work⟩ : ∃ (u : State) (n : Nat), takeInputs body s = { u with freeIndex := n } ∧ PositionWork s u := by
    by_cases hd : s.device = .starting
    · exact ⟨s, s.freeIndex, takeInputs_starting body hd, .refl s⟩
    · refine ⟨_, _, takeInputs_running body (by cases h : s.device with | starting => exact absurd h hd | running => rfl),
        PositionWork.foldl (fun p t => handleInput p (inputOf body p) t) (fun p => handleInput_work p _) _ s⟩
  rw [hu, work.frame]

/-- Settles O14: the inputs, then the return with the status slot of the state they leave. -/
theorem pairedReturnGoesUpstreamWithStatus : Obligations.PairedReturnGoesUpstreamWithStatus := by
  unfold Obligations.PairedReturnGoesUpstreamWithStatus
  intro s e body hlive he h
  have event : exec (.cycleReturn body) s = .next (takeReturn body s) := whenLive_of_live hlive _
  obtain ⟨b, hb⟩ : ∃ b : State, b = { s with fwd := { s.fwd with expectation := none } } := ⟨_, rfl⟩
  have sent := forwardReturn_sendsUp false true body (takeInputs body b)
  have frame := takeInputs_frame body b
  rw [takeReturn_matched he h, ← hb] at event
  have slot := sent.statusSlot_eq false
  refine ⟨_, event, ?_, fun hd => ?_, ?_⟩
  · rw [slot, sent.last, portU, takeInputs_boundary body b |>.fwd, hb]
    rfl
  · have : takeInputs body b = b := takeInputs_starting body (by rw [hb]; exact hd)
    rw [this] at sent ⊢
    rw [sent.frame, hb]
  · generalize takeInputs body b = u at frame sent ⊢
    generalize forwardReturn false true body u = t at sent ⊢
    rw [sent.frame, frame, hb]

theorem expectedLength_iff (e : Expectation) (body : Bytes) :
    expectedLength e body = true ↔ body.length + 1 = 5 + e.slotCount * e.slotSize + 2 := beq_iff_eq

/-- Settles O15: no inputs, and the return marked damaged. -/
theorem unpairedReturnIsMarkedDamaged : Obligations.UnpairedReturnIsMarkedDamaged := by
  unfold Obligations.UnpairedReturnIsMarkedDamaged
  intro s body hlive hunpaired
  have event : exec (.cycleReturn body) s = .next (takeReturn body s) := whenLive_of_live hlive _
  refine ⟨_, event, fun e he hlength => ?_, fun h => ?_⟩
  · have taken : takeReturn body s = forwardReturn true true body { s with fwd := { s.fwd with expectation := none } } := by
      simp only [takeReturn, he]
      rw [if_neg (mt (returnMatches_iff e body).1 (hunpaired e he)), if_pos ((expectedLength_iff e body).2 hlength)]
    rw [taken]
    exact forwardReturn_sendsUp true true body _
  · have taken : takeReturn body s = forwardReturn true false body s := by
      rcases h with h | ⟨e, he, hlength⟩
      · simp only [takeReturn, h]
      · simp only [takeReturn, he]
        rw [if_neg (mt (returnMatches_iff e body).1 (hunpaired e he)), if_neg (mt (expectedLength_iff e body).1 hlength)]
    rw [taken]
    exact forwardReturn_sendsUp true false body s

end Sys2Proof.Machine
end

section
/-! PROOFS. A part that goes (R14 to R16), and the inputs of one position (01): the acts they are, and the rules of the
position controller read off them. -/

namespace Sys2Proof.Machine

/-! ### Abandonment, the end of a round, removal -/

/-- The records without that of a position. -/
def withoutRecord (p : Pos) (v : Vector (Option Record) 4) : Vector (Option Record) 4 :=
  v.map (Option.filter fun r => r.position != p)

theorem withoutRecord_getElem (p : Pos) (v : Vector (Option Record) 4) (i : RecNo) :
    (withoutRecord p v)[i] = v[i].filter (fun r => r.position != p) := Vector.getElem_map _ _

theorem freeRecordOf_records (p : Pos) (s : State) : (freeRecordOf p s).sch.records = withoutRecord p s.sch.records := by
  refine congrArg (fun f => s.sch.records.map f) (funext fun r => ?_)
  cases r with
  | none => rfl
  | some x => by_cases h : x.position = p <;> simp [Option.filter, h]

theorem freeRecordOf_acted (p : Pos) (s : State) :
    Acted p { run := s.run[p], records := withoutRecord p } s (freeRecordOf p s) :=
  ⟨rfl, fun _ _ => rfl, rfl, freeRecordOf_records p s, rfl, rfl, rfl⟩

/-- A runtime half whose work is abandoned (R76). -/
def abandonedRuntime (r : Runtime) : Runtime := { r with pendingRequest := none, remaining := 0 }

/-- The request queue without the entry of a position. -/
def withoutEntry (p : Pos) (q : List Request) : List Request := q.filter (fun e => e.position != p)

theorem abandon_acted (p : Pos) (s : State) :
    Acted p { run := abandonedRuntime s.run[p], queue := withoutEntry p, records := withoutRecord p } s (abandon p s) :=
  ⟨OrderlyBut.abandon_run_self p s, (abandon_at p s).others, rfl, freeRecordOf_records p s, rfl, rfl, rfl⟩

theorem endRound_acted (p : Pos) (s : State) :
    Acted p { run := { s.run[p] with remaining := 0, phase := .held }, records := withoutRecord p } s (endRound p s) :=
  (freeRecordOf_acted p s).before (modRun_acted p (fun r => { r with remaining := 0, phase := .held }) _)

/-- A position leaves its sighting entry, which is touched (R98). -/
def leaveEntry (p : Pos) (l : List Sighting) : List Sighting :=
  touchFirst (Sighting.heldBy p) (fun e => { e with holders := e.holders.filter (fun q => q != p) }) l

/-- What removal, loss and disable processing leave of a position (R14 to R16). -/
def removalAct (s : State) (p : Pos) (reason : Reason) (phase : Phase) : Act :=
  { run := { Runtime.cleared phase with reason := some reason }
    queue := withoutEntry p
    records := withoutRecord p
    sightings := leaveEntry p
    notices := if s.run[p].verdict = .none then [] else [{ noticeOf s p .none reason with score := 0 }] }

theorem removePart_acted (reason : Reason) (phase : Phase) (p : Pos) (s : State) :
    Acted p (removalAct s p reason phase) s (removePart reason phase p s) := by
  have left : Acted p { run := (abandon p s).run[p], sightings := leaveEntry p } (abandon p s)
      (leaveSighting p (abandon p s)) := ⟨rfl, fun _ _ => rfl, rfl, rfl, rfl, rfl, rfl⟩
  have gone := ((abandon_acted p s).before left).before
    (modRun_acted p (fun _ => { Runtime.cleared phase with reason := some reason }) _)
  unfold removalAct
  by_cases h : s.run[p].verdict = .none
  · rw [removePart_silent reason phase p s h]
    refine gone.congr ?_
    rw [if_pos h]
    rfl
  · rw [removePart_notice reason phase p s h, noticeFor_eq]
    refine (gone.before (addNotice_acted p _ _)).congr ?_
    rw [modRun_self, if_neg h]
    rfl

/-! ### The inputs of a position, kind by kind -/

theorem completeSettling_acted (p : Pos) (counter : BitVec 16) (s : State) :
    Acted p { run := (completeSettling p counter s).run[p], queue := askQueue (free s p) p .ident } s
      (completeSettling p counter s) := by
  have acted := (modRun_acted p (fun r => { r with
    phase := .identifying, settleCount := 0, lossCount := 0, strokes := 0, prevStroke := counter }) s).before
    (ask_acted p .ident none _)
  refine acted.congr ?_
  rw [show (completeSettling p counter s).run[p] = _ from acted.run]
  rfl

/-- A part is settling or seated at a position (R14, R15). -/
def Runtime.holdsPart (r : Runtime) : Prop :=
  r.phase = .settling ∨ r.phase = .identifying ∨ r.phase = .challenging ∨ r.phase = .held

theorem Runtime.holdsPart.not_resting {r : Runtime} (h : r.holdsPart) : r.phase ≠ .vacant ∧ r.phase ≠ .lost := by
  rcases h with h | h | h | h <;> rw [h] <;> exact ⟨nofun, nofun⟩

/-- What an input does at a position: a part leaves, settling is completed, or its runtime half alone changes. -/
inductive InputDoes (p : Pos) (s : State) : State → Prop where
  | removed (h : s.run[p].holdsPart) : InputDoes p s (removePart .removed .vacant p s)
  | lost (h : s.run[p].holdsPart) : InputDoes p s (removePart .lost .lost p s)
  | settled (f : Runtime → Runtime) (counter : BitVec 16) (h : s.run[p].phase ≠ .identifying) :
      InputDoes p s (completeSettling p counter (modRun p f s))
  | stays (f : Runtime → Runtime) (hl : s.run[p].holdsPart → (f s.run[p]).phase = s.run[p].phase)
      (hs : s.run[p].phase ≠ .identifying → (f s.run[p]).phase ≠ .identifying) : InputDoes p s (modRun p f s)

/-- An update that leaves the phase alone. -/
theorem InputDoes.keepsPhase {p : Pos} {s : State} (f : Runtime → Runtime) (h : (f s.run[p]).phase = s.run[p].phase) :
    InputDoes p s (modRun p f s) := .stays f (fun _ => h) fun hs => by rw [h]; exact hs

theorem modRun_id (p : Pos) (s : State) : modRun p (fun r => r) s = s := by
  unfold modRun
  congr 1
  exact Vector.set_getElem_self p.isLt

theorem InputDoes.nothing (p : Pos) (s : State) : InputDoes p s s := by
  have := InputDoes.keepsPhase (p := p) (s := s) (fun r => r) rfl
  rwa [modRun_id] at this

theorem losePart_does {p : Pos} {s : State} (h : s.run[p].phase = .vacant ∨ s.run[p].holdsPart) :
    InputDoes p s (losePart p s) := by
  by_cases hv : s.run[p].phase = .vacant
  · rw [losePart_vacant p s hv]
    exact .stays _ (fun hp => absurd hv hp.not_resting.1) fun _ => nofun
  · rw [losePart_part p s hv]
    exact .lost (h.resolve_left hv)

theorem missInput_does {p : Pos} {s : State} (h : s.run[p].phase = .vacant ∨ s.run[p].holdsPart) :
    InputDoes p s (missInput p s) := by
  by_cases hr : s.mgt.setup.lostCycles ≤ s.run[p].lossCount + 1
  · rw [missInput_reached p s hr]
    exact losePart_does h
  · rw [missInput_low p s (by omega)]
    exact .keepsPhase _ rfl

theorem settlePresent_does {p : Pos} {s : State} (f : Runtime → Runtime)
    (hp : s.run[p].phase ≠ .identifying) (hf : (f s.run[p]).phase = .settling)
    (hs : s.run[p].holdsPart → s.run[p].phase = .settling) (bits : BitVec 14) (counter : BitVec 16) :
    InputDoes p s (settlePresent p bits counter (modRun p f s)) := by
  have stays (g : Runtime → Runtime) (hg : (g (f s.run[p])).phase = (f s.run[p]).phase) :
      InputDoes p s (modRun p g (modRun p f s)) := by
    rw [modRun_modRun]
    exact .stays _ (fun h => by rw [hg, hf, hs h]) fun _ => by rw [hg, hf]; nofun
  by_cases hw : WatchTrue (modRun p f s).configs[p] bits
  · by_cases hc : (modRun p f s).configs[p].settleCycles ≤ (modRun p f s).run[p].settleCount + 1
    · rw [settlePresent_last p bits counter _ hw hc]
      exact .settled f counter hp
    · rw [settlePresent_early p bits counter _ hw (by omega)]
      exact stays _ rfl
  · rw [settlePresent_off p bits counter _ hw]
    exact stays _ rfl

theorem seatedInput_does {p : Pos} {s : State} (h : s.run[p].holdsPart) (i : Input) :
    InputDoes p s (seatedInput p i s) := by
  cases i with
  | present bits counter =>
    exact .keepsPhase (fun r => { countStrokes (strokeCapOf s r) counter r with lossCount := 0 }) rfl
  | absent => exact .removed h
  | missing => exact missInput_does (.inr h)

theorem enterSettling_does {p : Pos} {s : State} (h : s.run[p].phase = .vacant ∨ s.run[p].phase = .lost)
    (bits : BitVec 14) (counter : BitVec 16) : InputDoes p s (enterSettling p bits counter s) := by
  refine settlePresent_does _ ?_ rfl ?_ bits counter
  · rcases h with h | h <;> rw [h] <;> nofun
  · exact fun part => absurd h (not_or.2 part.not_resting)

/-- Every input of every phase (R7 to R13). -/
theorem handleInput_does (p : Pos) (i : Input) (s : State) : InputDoes p s (handleInput p i s) := by
  unfold handleInput
  cases hp : s.run[p].phase with
  | disabled => exact .nothing p s
  | vacant =>
    cases i with
    | present bits counter => exact enterSettling_does (.inl hp) bits counter
    | absent => exact .keepsPhase _ rfl
    | missing => exact missInput_does (.inl hp)
  | settling =>
    have part : s.run[p].holdsPart := .inl hp
    cases i with
    | present bits counter =>
      have := settlePresent_does (s := s) (fun r => r) (by rw [hp]; nofun) hp (fun _ => hp) bits counter
      rwa [modRun_id] at this
    | absent => exact .removed part
    | missing => exact missInput_does (.inr part)
  | identifying => exact seatedInput_does (.inr (.inl hp)) i
  | challenging => exact seatedInput_does (.inr (.inr (.inl hp))) i
  | held => exact seatedInput_does (.inr (.inr (.inr hp))) i
  | lost =>
    cases i with
    | present bits counter => exact enterSettling_does (.inr hp) bits counter
    | absent => exact .stays _ (fun h => absurd hp h.not_resting.2) fun _ => nofun
    | missing => exact .nothing p s

/-! ### The act of an input, told by the runtime half it leaves -/

/-- What an input that leaves the runtime half of `t` does at a position. -/
def inputAct (s t : State) (p : Pos) : Act :=
  { run := t.run[p]
    queue := if partLeft s t p = true then withoutEntry p
      else if partSettled s t p = true then askQueue (free s p) p .ident else id
    records := if partLeft s t p = true then withoutRecord p else id
    sightings := if partLeft s t p = true then leaveEntry p else id
    notices := if (partLeft s t p && s.run[p].verdict != .none) = true
      then [{ noticeOf s p .none (if t.run[p].phase = .lost then .lost else .removed) with score := 0 }] else [] }

theorem partLeft_iff (s t : State) (p : Pos) : partLeft s t p = true ↔
    s.run[p].holdsPart ∧ (t.run[p].phase = .vacant ∨ t.run[p].phase = .lost) := decide_eq_true_iff

theorem partSettled_iff (s t : State) (p : Pos) : partSettled s t p = true ↔
    s.run[p].phase ≠ .identifying ∧ t.run[p].phase = .identifying := decide_eq_true_iff

theorem removalAct_eq_inputAct {s t : State} {p : Pos} {reason : Reason} {phase : Phase}
    (hr : phase = .vacant ∧ reason = .removed ∨ phase = .lost ∧ reason = .lost) (h : s.run[p].holdsPart)
    (ht : t.run[p] = { Runtime.cleared phase with reason := some reason }) :
    inputAct s t p = removalAct s p reason phase := by
  have left : partLeft s t p = true := by
    rw [partLeft_iff, ht]
    exact ⟨h, hr.imp And.left And.left⟩
  have because : (if t.run[p].phase = .lost then Reason.lost else .removed) = reason := by
    rw [ht]
    rcases hr with ⟨rfl, rfl⟩ | ⟨rfl, rfl⟩ <;> rfl
  unfold inputAct removalAct
  rw [left, because, ht]
  simp only [Bool.true_and, if_true, bne_iff_ne, ne_eq, ite_not]

theorem InputDoes.acted {p : Pos} {s t : State} (h : InputDoes p s t) : Acted p (inputAct s t p) s t := by
  cases h with
  | removed h =>
    have acted := removePart_acted .removed .vacant p s
    exact acted.congr (removalAct_eq_inputAct (.inl ⟨rfl, rfl⟩) h acted.run)
  | lost h =>
    have acted := removePart_acted .lost .lost p s
    exact acted.congr (removalAct_eq_inputAct (.inr ⟨rfl, rfl⟩) h acted.run)
  | settled f counter hp =>
    have acted := (modRun_acted p f s).before (completeSettling_acted p counter (modRun p f s))
    refine acted.congr ?_
    have phase : (completeSettling p counter (modRun p f s)).run[p].phase = .identifying := by
      unfold completeSettling
      rw [(ask_acted p .ident none _).run, modRun_self]
      dsimp only
      split <;> rfl
    have settled : partSettled s (completeSettling p counter (modRun p f s)) p = true := by
      rw [partSettled_iff]
      exact ⟨hp, phase⟩
    have kept : partLeft s (completeSettling p counter (modRun p f s)) p = false := by
      rw [← Bool.not_eq_true, partLeft_iff, phase]
      simp
    unfold inputAct
    rw [settled, kept]
    rfl
  | stays f hl hs =>
    refine (modRun_acted p f s).congr ?_
    have kept : partLeft s (modRun p f s) p = false := by
      rw [← Bool.not_eq_true, partLeft_iff, modRun_self]
      rintro ⟨part, gone⟩
      rw [hl part] at gone
      rcases part with h | h | h | h <;> rw [h] at gone <;> simp at gone
    have unsettled : partSettled s (modRun p f s) p = false := by
      rw [← Bool.not_eq_true, partSettled_iff, modRun_self]
      exact fun h => hs h.1 h.2
    unfold inputAct
    rw [kept, unsettled, modRun_self]
    rfl

end Sys2Proof.Machine
end

section
/-! PROOFS. The inputs of a return (R7): every position once by its own input, and what becomes of queue, records, holders and
notices. -/

namespace Sys2Proof.Machine

/-! ### Every position takes its input -/

theorem inputAct_congr {s t u v : State} {p : Pos} (hs : u.run[p] = s.run[p]) (ht : v.run[p] = t.run[p])
    (hf : free u p = free s p) (hc : u.fwd.cycleCount = s.fwd.cycleCount) : inputAct u v p = inputAct s t p := by
  have left : partLeft u v p = partLeft s t p := by unfold partLeft; rw [hs, ht]
  have settled : partSettled u v p = partSettled s t p := by unfold partSettled; rw [hs, ht]
  unfold inputAct noticeOf
  rw [left, settled, hs, ht, hf, hc]

theorem inputs_acted (body : Bytes) {s : State} {l : List Pos} (hl : l.Nodup) :
    ActedAll l (fun p => inputAct s (handleInput p (inputOf body p) s) p) s
      (l.foldl (fun t p => handleInput p (inputOf body p) t) s) :=
  foldl_acted (fun p => handleInput_at p _) (fun p u same hfwd =>
    (handleInput_does p _ u).acted.congr
      (inputAct_congr same.run.symm (handleInput_same _ same).symm same.free_eq.symm (by rw [hfwd]))) hl

/-- The acts of a return, told by the state they leave. -/
theorem inputs_leave (body : Bytes) {s t : State} {l : List Pos} (hl : l.Nodup) (hall : ∀ p, p ∈ l)
    (ht : l.foldl (fun t p => handleInput p (inputOf body p) t) s = t) : ActedAll l (inputAct s t) s t := by
  have acted := inputs_acted body (s := s) hl
  rw [ht] at acted
  have same : (fun p => inputAct s (handleInput p (inputOf body p) s) p) = inputAct s t :=
    funext fun p => inputAct_congr rfl (acted.run p (hall p)).symm rfl rfl
  rwa [same] at acted

/-! ### Records and holders of the parts that left -/

theorem foldl_withoutRecord (left : Pos → Bool) (l : List Pos) (v : Vector (Option Record) 4) (i : RecNo) :
    (l.foldl (fun v p => if left p = true then withoutRecord p v else v) v)[i] =
      v[i].filter (fun r => !(decide (r.position ∈ l) && left r.position)) := by
  induction l generalizing v with
  | nil =>
    simp only [List.foldl_nil, List.not_mem_nil, decide_false, Bool.false_and, Bool.not_false]
    cases v[i] <;> rfl
  | cons p l ih =>
    rw [List.foldl_cons, ih]
    by_cases hp : left p = true
    · rw [if_pos hp, withoutRecord_getElem, Option.filter_filter]
      congr 1
      funext r
      by_cases hr : r.position = p
      · simp [hr, hp]
      · simp [hr]
    · rw [if_neg hp]
      congr 1
      funext r
      by_cases hr : r.position = p
      · simp [hr, hp]
      · simp [hr]

/-- An entry without a position among its holders. -/
def withoutHolder (p : Pos) (e : Sighting) : Sighting := { e with holders := e.holders.filter (fun q => q != p) }

theorem withoutHolder_of_not_mem {p : Pos} {e : Sighting} (h : p ∉ e.holders) : withoutHolder p e = e := by
  unfold withoutHolder
  rw [List.filter_eq_self.2 fun q hq => bne_iff_ne.2 fun (same : q = p) => h (same ▸ hq)]

theorem map_withoutHolder {p : Pos} {l : List Sighting} (h : ∀ e ∈ l, p ∉ e.holders) : l.map (withoutHolder p) = l := by
  rw [List.map_congr_left (g := fun e => e) fun e he => withoutHolder_of_not_mem (h e he), List.map_id']

/-- A position held by at most one entry leaves its place there. -/
theorem leaveEntry_perm {p : Pos} {l : List Sighting} (h : l.countP (fun e => decide (p ∈ e.holders)) ≤ 1) :
    (leaveEntry p l).Perm (l.map (withoutHolder p)) := by
  rcases touchFirst_cases (Sighting.heldBy p) (withoutHolder p) l with ⟨kept, hnone⟩ | ⟨a, e, b, rfl, ha, he, touched⟩
  · have : leaveEntry p l = l := kept
    rw [this, map_withoutHolder fun e he hp => by
      have := hnone e he
      rw [(CacheOk.heldBy_iff p e).2 hp] at this
      cases this]
  · have free (x : Sighting) (hx : x ∈ a ++ b) : p ∉ x.holders := by
      rw [List.countP_append, List.countP_cons_of_pos (by rw [decide_eq_true_eq, ← CacheOk.heldBy_iff]; exact he)] at h
      have none : (a ++ b).countP (fun e => decide (p ∈ e.holders)) = 0 := by rw [List.countP_append]; omega
      simpa using List.countP_eq_zero.1 none x hx
    have : leaveEntry p (a ++ e :: b) = withoutHolder p e :: (a ++ b) := touched
    rw [this, List.map_append, List.map_cons,
      map_withoutHolder fun x hx => free x (List.mem_append_left _ hx),
      map_withoutHolder fun x hx => free x (List.mem_append_right _ hx)]
    exact List.perm_middle.symm

theorem foldl_leaveEntry (left : Pos → Bool) {l : List Pos} (hl : l.Nodup) {x : List Sighting}
    (once : ∀ p ∈ l, left p = true → x.countP (fun e => decide (p ∈ e.holders)) ≤ 1) :
    (l.foldl (fun x p => if left p = true then leaveEntry p x else x) x).Perm
      (x.map (fun e => { e with holders := e.holders.filter (fun q => !(decide (q ∈ l) && left q)) })) := by
  induction l generalizing x with
  | nil => simp
  | cons p l ih =>
    obtain ⟨hp, hl⟩ := List.nodup_cons.1 hl
    rw [List.foldl_cons]
    by_cases hleft : left p = true
    · have first := leaveEntry_perm (once p List.mem_cons_self hleft)
      have after (q : Pos) (hq : q ∈ l) (hql : left q = true) :
          (leaveEntry p x).countP (fun e => decide (q ∈ e.holders)) ≤ 1 := by
        rw [first.countP_eq, List.countP_map]
        refine le_trans (List.countP_mono_left fun e _ he => ?_) (once q (List.mem_cons_of_mem _ hq) hql)
        simp only [Function.comp, withoutHolder, decide_eq_true_eq, List.mem_filter] at he ⊢
        exact he.1
      rw [if_pos hleft]
      refine (ih hl after).trans ((first.map _).trans (.of_eq ?_))
      rw [List.map_map]
      refine List.map_congr_left fun e _ => ?_
      simp only [Function.comp, withoutHolder, List.filter_filter]
      congr 1
      refine List.filter_congr fun q _ => ?_
      by_cases hq : q = p
      · simp [hq, hleft]
      · simp [hq]
    · rw [if_neg hleft]
      refine (ih hl fun q hq => once q (List.mem_cons_of_mem _ hq)).trans (.of_eq ?_)
      refine List.map_congr_left fun e _ => ?_
      congr 1
      refine List.filter_congr fun q _ => ?_
      by_cases hq : q = p
      · simp [hq, hleft]
      · simp [hq]

/-! ### What the inputs of a return add up to -/

theorem inputs_taken (body : Bytes) {s t : State} {l : List Pos} (hl : l.Nodup) (hall : ∀ p, p ∈ l)
    (ht : l.foldl (fun t p => handleInput p (inputOf body p) t) s = t) (n : Nat) :
    InputsTaken body s { t with freeIndex := n } := by
  have acted := inputs_leave body hl hall ht
  have records (i : RecNo) : t.sch.records[i] = s.sch.records[i].filter (fun r => !partLeft s t r.position) := by
    have step : (fun v p => (inputAct s t p).records v) =
        fun v p => if partLeft s t p = true then withoutRecord p v else v := by
      funext v p
      unfold inputAct
      dsimp only
      split <;> rfl
    rw [acted.records, step, foldl_withoutRecord]
    simp only [hall, decide_true, Bool.true_and]
  refine ⟨⟨l, hl, hall, by rw [ht], fun urgent due groups unasked => ?_, ?_⟩, fun i r hr => ?_, fun i hi => ?_, fun once => ?_⟩
  · have step : (fun q p => (inputAct s t p).queue q) = queueStep (partLeft s t) (partSettled s t) .ident := by
      funext q p
      have queue : (inputAct s t p).queue = if partLeft s t p = true then withoutEntry p
          else if partSettled s t p = true then askQueue (free s p) p .ident else id := rfl
      rw [queue, queueStep]
      by_cases hleft : partLeft s t p = true
      · rw [if_pos hleft, if_pos hleft]; rfl
      · rw [if_neg hleft, if_neg hleft]
        by_cases hs : partSettled s t p = true
        · rw [if_pos hs, if_pos hs, askQueue, (free_iff s p).2 (unasked p hs)]; rfl
        · rw [if_neg hs, if_neg hs]; rfl
    have apart (p : Pos) (hleft : partLeft s t p = true) : partSettled s t p = false := by
      rw [← Bool.not_eq_true, partSettled_iff]
      rintro ⟨-, hs⟩
      have := ((partLeft_iff s t p).1 hleft).2
      rw [hs] at this
      simp at this
    have := acted.queue
    rw [step, foldl_queueStep (by decide) apart hl groups] at this
    simp only [hall, decide_true, Bool.true_and] at this
    exact this
  · show (t.mgt.notices, t.mgt.attention) = _
    rw [acted.notices]
    exact congrArg (offered · s) (flatMap_ite _ _ l)
  · show t.sch.records[i] = _
    rw [records i, hr]
    show _ = if partLeft s t r.position = true then none else some r
    rw [Option.filter_some]
    cases partLeft s t r.position <;> rfl
  · show t.sch.records[i] = _
    rw [records i, hi]
    rfl
  · have step : (fun x p => (inputAct s t p).sightings x) = fun x p => if partLeft s t p = true then leaveEntry p x else x := by
      funext x p
      unfold inputAct
      dsimp only
      split <;> rfl
    have perm := foldl_leaveEntry (partLeft s t) hl (x := s.sightings) fun p _ hp => by
      rw [List.countP_eq_length_filter]
      exact once p hp
    rw [← step, ← acted.sightings] at perm
    simp only [hall, decide_true, Bool.true_and] at perm
    exact perm

/-! ### The input of a position (R7; 08, Input slot) -/

theorem ofNat_pair (a b : Byte) : BitVec.ofNat 16 (a.toNat * 256 + b.toNat) = a ++ b := by
  refine BitVec.eq_of_toNat_eq ?_
  have ha := a.isLt
  have hb := b.isLt
  rw [BitVec.toNat_ofNat, BitVec.toNat_append, ← Nat.shiftLeft_add_eq_or_of_lt hb, Nat.shiftLeft_eq, Nat.mod_eq_of_lt (by omega)]

/-- The four bytes of an input slot. -/
theorem inputOfSlot_eq {slot : Bytes} (h : 4 ≤ slot.length) : inputOfSlot slot =
    let status : BitVec 16 := slot.getD 0 0 ++ slot.getD 1 0
    if status.getLsbD 15 = false then .missing else if status.getLsbD 14 = false then .absent
    else .present (status.setWidth 14) (slot.getD 2 0 ++ slot.getD 3 0) := by
  obtain ⟨a, b, c, d, rest, rfl⟩ : ∃ a b c d rest, slot = a :: b :: c :: d :: rest := by
    match slot, h with
    | a :: b :: c :: d :: rest, _ => exact ⟨a, b, c, d, rest, rfl⟩
  have status : BitVec.ofNat 16 (fieldNat 0 2 (a :: b :: c :: d :: rest)) = a ++ b := by
    rw [← ofNat_pair, ← beNat_pair]; rfl
  have counter : BitVec.ofNat 16 (fieldNat 2 2 (a :: b :: c :: d :: rest)) = c ++ d := by
    rw [← ofNat_pair, ← beNat_pair]; rfl
  unfold inputOfSlot
  rw [status, counter]
  rfl

theorem slot_getD (body : Bytes) (off size : Nat) {k : Nat} (hk : k < size) :
    (field off size body).getD k 0 = body.getD (off + k) 0 := by
  simp [field, List.getD_eq_getElem?_getD, hk]

/-- Settles O17: the fold over the positions, in the free order. -/
theorem returnHandlesPositionsIndependently : Obligations.ReturnHandlesPositionsIndependently := by
  unfold Obligations.ReturnHandlesPositionsIndependently
  intro s e body hlive hd he h
  have event : exec (.cycleReturn body) s = .next (takeReturn body s) := whenLive_of_live hlive _
  obtain ⟨b, hb⟩ : ∃ b : State, b = { s with fwd := { s.fwd with expectation := none } } := ⟨_, rfl⟩
  have hbd : b.device = .running := by rw [hb]; exact hd
  have taken := takeInputs_running body hbd
  rw [takeReturn_matched he h, ← hb] at event
  have sent := forwardReturn_sendsUp false true body (takeInputs body b)
  refine ⟨_, event, fun p => ?_, ⟨takeInputs body b, ?_, sent.frame.trans ?_⟩, fun p => ⟨fun hp => ?_, fun hp hsize => ?_⟩⟩
  · have := takeInputs_run body b hbd p
    rw [sent.frame]
    refine this.trans ((handleInput_same _ ?_).symm)
    rw [hb]
    exact ⟨rfl, rfl, rfl, rfl, rfl, rfl⟩
  · rw [← hb, taken]
    exact inputs_taken body (positionsBy_nodup _) (mem_positionsBy _) rfl _
  · rw [sent.frame]
  · rw [inputOf, if_neg (by rw [cycleHeader_slotCount, ← h.slots]; omega)]
  · have length := h.length
    have fits : (p.val + 1) * e.slotSize ≤ e.slotCount * e.slotSize := Nat.mul_le_mul_right _ hp
    rw [Nat.succ_mul] at fits
    have whole : 4 ≤ (slotBytes (cycleHeader body) p.val body).length := by
      rw [slotBytes, cycleHeader_slotSize, ← h.size, field, List.length_take, List.length_drop]
      omega
    simp only [inputOf, cycleHeader_slotCount, ← h.slots, if_pos hp, inputOfSlot_eq whole]
    simp only [slotBytes, cycleHeader_slotSize, ← h.size]
    rw [slot_getD body _ _ (by omega), slot_getD body _ _ (by omega), slot_getD body _ _ (by omega),
      slot_getD body _ _ (by omega)]

end Sys2Proof.Machine
end

section
/-! PROOFS. The rules of the position controller (R6 to R16, R23), phase by phase. -/

namespace Sys2Proof.Machine

/-! ### Updates of one runtime half, and the completion of settling -/

/-- An update of one runtime half, as the obligations tell it. -/
theorem modRun_told (p : Pos) (f : Runtime → Runtime) (s : State) {u : State} (hu : u = modRun p f s) {r : Runtime}
    (hr : f s.run[p] = r) : ∃ t, u = t ∧ t = { s with run := t.run } ∧ OthersKeep p s t ∧ t.run[p] = r :=
  ⟨_, hu, rfl, (modRun_acted p f s).others, by rw [modRun_self, hr]⟩

/-- Settling is completed at a position without entry or record (R10, R56, R57). -/
theorem completeSettling_told {p : Pos} {s u : State} {f : Runtime → Runtime} {counter : BitVec 16}
    {urgent due : List Request} (hu : u = completeSettling p counter (modRun p f s)) (hfree : Unasked s p)
    (hq : QueueGroups s.sch.queue urgent due) {r : Runtime}
    (hr : { f s.run[p] with phase := .identifying, settleCount := 0, lossCount := 0, strokes := 0, prevStroke := counter,
                            pendingRequest := some .ident } = r) :
    ∃ t, u = t ∧ OthersKeep p s t ∧
      t = { s with run := t.run, sch := { s.sch with queue := urgent ++ [{ position := p, kind := .ident }] ++ due } } ∧
      t.run[p] = r := by
  rw [completeSettling, modRun_modRun, ask_called p _ .ident none s hfree, enqueue_urgent _ hq (show RequestKind.ident ≠ .due by decide)] at hu
  refine ⟨u, rfl, fun q hq => ?_, by rw [hu]; rfl, ?_⟩
  · rw [hu]
    dsimp only
    rw [modRun_other hq]
  · rw [hu]
    dsimp only
    rw [modRun_self]
    exact hr

theorem completeSettling_self {p : Pos} {s u : State} {counter : BitVec 16} (hu : u = completeSettling p counter s) :
    u = completeSettling p counter (modRun p (fun r => r) s) := by rw [modRun_id, hu]

/-- A MISSING input below lost_cycles (R11). -/
theorem missInput_told {p : Pos} {s u : State} (hu : u = missInput p s)
    (h : s.run[p].lossCount + 1 < s.mgt.setup.lostCycles) {r : Runtime}
    (hr : { s.run[p] with lossCount := s.run[p].lossCount + 1,
                          settleCount := if s.run[p].phase = .settling then 0 else s.run[p].settleCount } = r) :
    ∃ t, u = t ∧ t = { s with run := t.run } ∧ OthersKeep p s t ∧ t.run[p] = r :=
  modRun_told p _ s (hu.trans (missInput_low p s h)) hr

/-- A MISSING input that reaches lost_cycles loses a part (R15). -/
theorem missInput_loses {p : Pos} {s : State} (h : s.mgt.setup.lostCycles ≤ s.run[p].lossCount + 1)
    (hv : s.run[p].phase ≠ .vacant) : PartRemoved p .lost .lost s (missInput p s) := by
  rw [missInput_reached p s h, losePart_part p s hv]
  exact removePart_removed .lost .lost p s

/-! ### SETTLING -/

theorem handleInput_settling {s : State} {p : Pos} (h : s.run[p].phase = .settling) :
    (∀ bits counter, handleInput p (.present bits counter) s = settlePresent p bits counter s) ∧
      handleInput p .absent s = removePart .removed .vacant p s ∧ handleInput p .missing s = missInput p s := by
  simp only [handleInput, h, implies_true, and_self]

/-- Settles O18: the three kinds of input, the watch condition apart. -/
theorem settlingFollowsTheWatchCondition : Obligations.SettlingFollowsTheWatchCondition := by
  unfold Obligations.SettlingFollowsTheWatchCondition
  intro s p h
  obtain ⟨present, absent, missing⟩ := handleInput_settling h
  refine ⟨fun bits counter hw hc => ?_, fun bits counter urgent due hw hc hu hq => ?_, fun bits counter hw => ?_, ?_,
    fun hl => missInput_told missing hl (by rw [if_pos h]), fun hl => ?_⟩
  · exact modRun_told p _ s ((present bits counter).trans (settlePresent_early p bits counter s hw hc)) rfl
  · exact completeSettling_told
      (completeSettling_self ((present bits counter).trans (settlePresent_last p bits counter s hw hc))) hu hq rfl
  · exact modRun_told p _ s ((present bits counter).trans (settlePresent_off p bits counter s hw)) rfl
  · rw [absent]
    exact removePart_removed .removed .vacant p s
  · rw [missing]
    exact missInput_loses hl (by rw [h]; nofun)

/-! ### IDENTIFYING, CHALLENGING, HELD -/

theorem handleInput_seated {s : State} {p : Pos}
    (h : s.run[p].phase = .identifying ∨ s.run[p].phase = .challenging ∨ s.run[p].phase = .held) (i : Input) :
    handleInput p i s = seatedInput p i s := by
  rcases h with h | h | h <;> simp only [handleInput, h]

theorem strokeCapOf_eq {s : State} {r : Runtime} {cap : Nat} (hn : r.classIndex = none → cap = s.mgt.setup.defaultStrokeCap)
    (hs : ∀ i, r.classIndex = some i → cap = s.mgt.classes[i].strokeCap) : strokeCapOf s r = cap := by
  unfold strokeCapOf classOf
  cases h : r.classIndex with
  | none => exact (hn h).symm
  | some i => exact (hs i h).symm

/-- Settles O19: the stroke step of R23, and the inputs that end a seating. -/
theorem seatedInputsCountStrokes : Obligations.SeatedInputsCountStrokes := by
  unfold Obligations.SeatedInputsCountStrokes
  intro s p h
  have seated := handleInput_seated h
  have notVacant : s.run[p].phase ≠ .vacant := by rcases h with h | h | h <;> rw [h] <;> nofun
  have notSettling : s.run[p].phase ≠ .settling := by rcases h with h | h | h <;> rw [h] <;> nofun
  refine ⟨fun bits new cap hn hs => ?_, ?_, fun hl => ?_, fun hl => ?_⟩
  · obtain ⟨t, ht, frame, others, run⟩ := modRun_told p
      (fun r => { countStrokes (strokeCapOf s r) new r with lossCount := 0 }) s (seated (.present bits new)) rfl
    refine ⟨t, (new - s.run[p].prevStroke).toNat, ht, frame, (new - s.run[p].prevStroke).isLt, ?_, others, ?_⟩
    · have hnew := new.isLt
      have hprev := s.run[p].prevStroke.isLt
      rw [BitVec.toNat_sub]
      omega
    · rw [run, strokeCapOf_eq hn hs]
      rfl
  · rw [seated .absent]
    exact removePart_removed .removed .vacant p s
  · exact missInput_told (seated .missing) hl (by rw [if_neg notSettling])
  · rw [seated .missing]
    exact missInput_loses hl notVacant

/-! ### VACANT, LOST, DISABLED -/

theorem handleInput_entering {s : State} {p : Pos} (h : s.run[p].phase = .vacant ∨ s.run[p].phase = .lost)
    (bits : BitVec 14) (counter : BitVec 16) : handleInput p (.present bits counter) s = enterSettling p bits counter s := by
  rcases h with h | h <;> simp only [handleInput, h]

/-- Settles O20: entry into SETTLING, and the inputs without a part. -/
theorem vacantAndLostInputs : Obligations.VacantAndLostInputs := by
  unfold Obligations.VacantAndLostInputs
  intro s p
  refine ⟨fun h input => by simp only [handleInput, h], fun h => by simp only [handleInput, h],
    fun bits counter h hc => ?_, fun bits counter h hw => ?_, fun bits counter urgent due h hw hc hu hq => ?_, fun h => ?_,
    fun h => ?_⟩
  · by_cases hw : WatchTrue s.configs[p] bits
    · obtain ⟨t, ht, frame, others, run⟩ := modRun_told p _ s
        ((handleInput_entering h bits counter).trans (enterSettling_early p bits counter s hw hc)) rfl
      exact ⟨t, 1, ht, frame, others, fun _ => rfl, fun hn => absurd hw hn, run⟩
    · obtain ⟨t, ht, frame, others, run⟩ := modRun_told p _ s
        ((handleInput_entering h bits counter).trans (enterSettling_off p bits counter s hw)) rfl
      exact ⟨t, 0, ht, frame, others, fun hn => absurd hn hw, fun _ => rfl, run⟩
  · exact modRun_told p _ s ((handleInput_entering h bits counter).trans (enterSettling_off p bits counter s hw)) rfl
  · refine completeSettling_told ((handleInput_entering h bits counter).trans
      (settlePresent_last p bits counter _ hw ?_)) hu hq rfl
    rw [modRun_self]
    exact hc
  · rcases h with h | h
    · rw [if_pos h]
      exact modRun_told p (fun r => { r with lossCount := 0 }) s (by simp only [handleInput, h]) rfl
    · rw [if_neg (by rw [h]; nofun)]
      exact modRun_told p (fun r => { r with phase := .vacant, released := false }) s (by simp only [handleInput, h]) rfl
  · have missing : handleInput p .missing s = missInput p s := by simp only [handleInput, h]
    by_cases hl : s.run[p].lossCount + 1 < s.mgt.setup.lostCycles
    · rw [if_pos hl]
      exact missInput_told missing hl (by rw [if_neg (by rw [h]; nofun)])
    · rw [if_neg hl]
      exact modRun_told p _ s
        ((missing.trans (missInput_reached p s (by omega))).trans (losePart_vacant p s h)) rfl

/-! ### The events of one position (LOG 4) -/

theorem settlingDue_iff (s : State) (p : Pos) : settlingDue s p = true ↔
    s.device = .running ∧ s.run[p].phase = .settling ∧ s.configs[p].settleCycles ≤ s.run[p].settleCount + 1 := by
  unfold settlingDue
  rw [Bool.and_eq_true, Bool.and_eq_true, beq_iff_eq, beq_iff_eq, decide_eq_true_eq, and_assoc]

theorem lossDue_iff (s : State) (p : Pos) : lossDue s p = true ↔
    s.device = .running ∧ s.run[p].phase.countsLoss = true ∧ s.mgt.setup.lostCycles ≤ s.run[p].lossCount + 1 := by
  unfold lossDue
  rw [Bool.and_eq_true, Bool.and_eq_true, beq_iff_eq, decide_eq_true_eq, and_assoc]

/-- Settles O21: each event, due and not due. -/
theorem onePositionEventsActWhenDue : Obligations.OnePositionEventsActWhenDue := by
  unfold Obligations.OnePositionEventsActWhenDue
  refine ⟨fun s p counter hlive => ?_, fun s p hlive => ?_⟩
  · have event : exec (.settlingComplete p counter) s =
        .next (if settlingDue s p = true then completeSettling p counter s else s) := whenLive_of_live hlive _
    refine ⟨fun urgent due hd hp hc hu hq => ?_, fun h => ?_⟩
    · rw [event, if_pos ((settlingDue_iff s p).2 ⟨hd, hp, hc⟩)]
      obtain ⟨t, ht, told⟩ := completeSettling_told (completeSettling_self rfl) hu hq rfl
      exact ⟨t, congrArg _ ht, told⟩
    · rw [event, if_neg]
      intro hdue
      obtain ⟨hd, hp, hc⟩ := (settlingDue_iff s p).1 hdue
      rcases h with h | h | h
      · rw [h] at hd; cases hd
      · exact h hp
      · omega
  · have event : exec (.lossProcessing p) s = .next (if lossDue s p = true then losePart p s else s) :=
      whenLive_of_live hlive _
    refine ⟨fun hd hl hp => ?_, fun hd hl hp => ?_, fun h => ?_⟩
    · have counts : s.run[p].phase.countsLoss = true := by rcases hp with hp | hp | hp | hp <;> rw [hp] <;> rfl
      have part : s.run[p].holdsPart := hp
      rw [event, if_pos ((lossDue_iff s p).2 ⟨hd, counts, hl⟩), losePart_part p s part.not_resting.1]
      exact ⟨_, rfl, removePart_removed .lost .lost p s⟩
    · rw [event, if_pos ((lossDue_iff s p).2 ⟨hd, by rw [hp]; rfl, hl⟩)]
      obtain ⟨t, ht, told⟩ := modRun_told p _ s (losePart_vacant p s hp) rfl
      exact ⟨t, congrArg _ ht, told⟩
    · rw [event, if_neg]
      intro hdue
      obtain ⟨hd, hp, hc⟩ := (lossDue_iff s p).1 hdue
      rcases h with h | h | h | h
      · rw [h] at hd; cases hd
      · omega
      · rw [h] at hp; cases hp
      · rw [h] at hp; cases hp

end Sys2Proof.Machine
end

section
/-! PROOFS. The challenge scheduler (03): what it chooses, and what an issue does. -/

namespace Sys2Proof.Machine

/-! ### The first of a list in an order -/

/-- A search finds the member that passes and has none that passes before it. -/
theorem find?_first {α : Type} {R : α → α → Prop} {l : List α} (hl : l.Pairwise R) {test : α → Bool} {x : α} (hx : x ∈ l)
    (ht : test x = true) (hfirst : ∀ y ∈ l, R y x → test y = false) : l.find? test = some x := by
  induction hl with
  | nil => cases hx
  | cons hR _ ih =>
    rcases List.mem_cons.1 hx with rfl | hx
    · exact List.find?_cons_of_pos ht
    · rw [List.find?_cons_of_neg (by rw [hfirst _ List.mem_cons_self (hR x hx)]; decide)]
      exact ih hx fun y hy => hfirst y (List.mem_cons_of_mem _ hy)

theorem find?_none_of {α : Type} {l : List α} {test : α → Bool} {P : α → Prop} (h : ∀ x, test x = true → P x)
    (hn : ∀ x ∈ l, ¬ P x) : l.find? test = none :=
  List.find?_eq_none.2 fun x hx ht => hn x hx (h x ht)

theorem finRange_ascends (n : Nat) : (List.finRange n).Pairwise (· < ·) := List.pairwise_lt_finRange n

/-- The sweep examines the positions from its cursor on (R66). -/
theorem sweepOrder_pairwise (cursor : Pos) : (sweepOrder cursor).Pairwise (SweptBefore cursor) := by
  have below (p : Pos) (hp : p ∈ (List.finRange 48).take cursor.val) : p.val < cursor.val := by
    obtain ⟨k, hk, rfl⟩ := List.mem_take_iff_getElem.1 hp
    rw [List.getElem_finRange]
    exact (lt_min_iff.1 hk).1
  have above (p : Pos) (hp : p ∈ (List.finRange 48).drop cursor.val) : cursor.val ≤ p.val := by
    obtain ⟨k, hk, rfl⟩ := List.mem_drop_iff_getElem.1 hp
    rw [List.getElem_finRange]
    exact Nat.le_add_right _ _
  have order : sweepOrder cursor = (List.finRange 48).drop cursor.val ++ (List.finRange 48).take cursor.val := by
    simp [sweepOrder, List.rotateLeft, Nat.mod_eq_of_lt cursor.isLt]
  have sorted := finRange_ascends 48
  rw [order, List.pairwise_append]
  refine ⟨?_, ?_, fun p hp q hq => ?_⟩
  · refine (sorted.sublist (List.drop_sublist _ _)).imp_of_mem fun {p q} hp hq hpq => ?_
    have := above p hp
    have := above q hq
    have : p.val < q.val := hpq
    unfold SweptBefore
    omega
  · refine (sorted.sublist (List.take_sublist _ _)).imp_of_mem fun {p q} hp hq hpq => ?_
    have := below p hp
    have := below q hq
    have : p.val < q.val := hpq
    unfold SweptBefore
    omega
  · have := above p hp
    have := below q hq
    unfold SweptBefore
    omega

theorem mem_sweepOrder (cursor p : Pos) : p ∈ sweepOrder cursor := by
  have : p ∈ (List.finRange 48).take cursor.val ++ (List.finRange 48).drop cursor.val := by
    rw [List.take_append_drop]
    exact List.mem_finRange p
  simp only [sweepOrder, List.rotateLeft, List.length_finRange, Nat.mod_eq_of_lt cursor.isLt]
  rw [if_neg (by decide)]
  rw [List.mem_append] at this ⊢
  exact this.symm

/-! ### The tests of R59, R64, R66 and R67 -/

theorem epochReady_iff (s : State) : s.kst.epochReady = true ↔ EpochReady s := by
  unfold KeyStore.epochReady EpochReady KeyStore.updating
  cases s.kst.epochPending <;> cases s.kst.op <;> simp

theorem hasRecord_eq_false_iff (s : State) (p : Pos) :
    hasRecord s p = false ↔ ∀ (i : RecNo) (r : Record), s.sch.records[i] = some r → r.position ≠ p := by
  rw [← Bool.not_eq_true, hasRecord_eq]
  push Not
  rfl

theorem continuing_iff (s : State) (p : Pos) : continuing s p = true ↔ Continues s p := by
  unfold continuing Continues
  rw [← free_iff, free]
  simp only [Bool.and_eq_true, beq_iff_eq, bne_iff_ne, Option.isSome_iff_ne_none, Bool.not_eq_true', Bool.or_eq_false_iff,
    and_assoc, and_comm (a := hasEntry s p = false)]

theorem issuable_iff (s : State) (e : Request) : issuable s e = true ↔ MayIssue s e := by
  unfold issuable MayIssue
  rw [Bool.and_eq_true, Bool.not_eq_true', hasRecord_eq_false_iff]
  refine and_congr_right fun _ => ?_
  cases e.kind <;> simp [epochReady_iff, Option.isSome_iff_ne_none]

theorem sweepEligible_iff (s : State) (p : Pos) : sweepEligible s p = true ↔
    s.run[p].phase = .held ∧ s.run[p].latch = false ∧
      ((s.run[p].identity ≠ none ∧
          ∃ e, classOf s s.run[p] = some e ∧ e.sweepPeriod ≠ 0 ∧ e.sweepPeriod ≤ s.run[p].sweepAge) ∨
        (s.run[p].verdict = .undecided ∧ s.mgt.setup.undecidedRetry ≤ s.run[p].sweepAge ∧
          (s.run[p].identity = none ∨ s.run[p].classIndex ≠ none))) := by
  unfold sweepEligible
  generalize s.run[p] = r
  dsimp only
  rw [← Option.isSome_iff_ne_none (o := r.classIndex)]
  cases r.identity <;> cases classOf s r <;> simp [and_assoc]

theorem sweepable_iff (s : State) (p : Pos) : sweepable s p = true ↔ MaySweep s p := by
  unfold sweepable
  rw [Bool.and_eq_true, Bool.and_eq_true, sweepEligible_iff, Bool.not_eq_true', hasRecord_eq_false_iff, Bool.or_eq_true,
    Option.isNone_iff_eq_none, epochReady_iff]
  exact ⟨fun ⟨⟨⟨held, unlatched, eligible⟩, noRecord⟩, epoch⟩ => ⟨held, unlatched, eligible, noRecord, epoch⟩,
    fun ⟨held, unlatched, eligible, noRecord, epoch⟩ => ⟨⟨⟨held, unlatched, eligible⟩, noRecord⟩, epoch⟩⟩

/-! ### The order of waiting -/

theorem resendOrder_iff (s : State) (i : RecNo) (n : Nat) : resendOrder s i = some n ↔ Resending s i n := by
  unfold resendOrder Resending
  cases s.sch.records[i] with
  | none => simp
  | some r => cases h : r.state <;> simp [h]

theorem arrivalOrder_iff (s : State) (i : RecNo) (n : Nat) : arrivalOrder s i = some n ↔ AwaitingKey s i n := by
  unfold arrivalOrder AwaitingKey
  cases s.sch.records[i] with
  | none => simp
  | some r => cases h : r.state <;> simp [h]

theorem mem_recordsBy (order : RecNo → Option Nat) (i : RecNo) : i ∈ recordsBy order ↔ ∃ n, order i = some n := by
  unfold recordsBy
  rw [List.mem_insertionSort, List.mem_filter, Option.isSome_iff_exists]
  simp

theorem recordsBy_nodup (order : RecNo → Option Nat) : (recordsBy order).Nodup :=
  (List.perm_insertionSort _ _).nodup_iff.2 ((List.nodup_finRange 4).filter _)

/-- The records stand in the order of their numbers. -/
theorem recordsBy_sorted (order : RecNo → Option Nat) :
    (recordsBy order).Pairwise (fun i j => (order i).getD 0 ≤ (order j).getD 0) := by
  have : Std.Total (fun i j : RecNo => (order i).getD 0 ≤ (order j).getD 0) := ⟨fun i j => Nat.le_total _ _⟩
  have : IsTrans RecNo (fun i j : RecNo => (order i).getD 0 ≤ (order j).getD 0) := ⟨fun _ _ _ => Nat.le_trans⟩
  exact List.pairwise_insertionSort _ _

/-! ### The choice of R64 -/

theorem recordsBy_first {s : State} {i : RecNo} {n : Nat} (hi : Resending s i n)
    (hfirst : ∀ j m, Resending s j m → j ≠ i → n < m) : ∃ rest, recordsBy (resendOrder s) = i :: rest := by
  have hmem := (mem_recordsBy (resendOrder s) i).2 ⟨n, (resendOrder_iff s i n).2 hi⟩
  have sorted := recordsBy_sorted (resendOrder s)
  have members (j : RecNo) (hj : j ∈ recordsBy (resendOrder s)) : ∃ m, resendOrder s j = some m :=
    (mem_recordsBy _ j).1 hj
  cases hl : recordsBy (resendOrder s) with
  | nil => rw [hl] at hmem; cases hmem
  | cons j rest =>
    rw [hl] at hmem sorted members
    by_cases hji : j = i
    · exact ⟨rest, by rw [hji]⟩
    · obtain ⟨m, hm⟩ := members j List.mem_cons_self
      have later := (List.pairwise_cons.1 sorted).1 i ((List.mem_cons.1 hmem).resolve_left (Ne.symm hji))
      rw [hm, (resendOrder_iff s i n).2 hi] at later
      have := hfirst j m ((resendOrder_iff s j m).1 hm) hji
      simp only [Option.getD_some] at later
      omega

theorem recordsBy_empty {s : State} (h : ∀ i n, ¬ Resending s i n) : recordsBy (resendOrder s) = [] :=
  List.eq_nil_iff_forall_not_mem.2 fun i hi => by
    obtain ⟨n, hn⟩ := (mem_recordsBy _ i).1 hi
    exact h i n ((resendOrder_iff s i n).1 hn)

theorem freeRecord_isNone_iff (s : State) : (freeRecord s).isNone = true ↔ ∀ i : RecNo, s.sch.records[i] ≠ none := by
  unfold freeRecord
  rw [Option.isNone_iff_eq_none, List.find?_eq_none]
  simp

/-- Without a resend and with a record free, the choice goes on to the continuations. -/
theorem choose_free {s : State} (hn : ∀ i n, ¬ Resending s i n) (hfree : ∃ i : RecNo, s.sch.records[i] = none) :
    choose s =
      match (if s.kst.epochReady then (List.finRange 48).find? (continuing s) else none) with
      | some p => some (.continuation p)
      | none =>
        match s.sch.queue.find? (issuable s) with
        | some e => some (.queued e)
        | none =>
          match (sweepOrder s.sch.cursor).find? (sweepable s) with
          | some p => some (if s.run[p].identity.isNone then .sweepIdent p else .sweepRound p)
          | none => none := by
  obtain ⟨i, hi⟩ := hfree
  unfold choose
  rw [recordsBy_empty hn]
  exact if_neg fun h => (freeRecord_isNone_iff s).1 h i hi

/-- Settles O28: the searches of R64 one after another. -/
theorem schedulerChoosesInOrder : Obligations.SchedulerChoosesInOrder := by
  unfold Obligations.SchedulerChoosesInOrder
  intro s
  refine ⟨fun i n hi hfirst => ?_, fun hn => ⟨fun hfull => ?_, fun hfree => ?_⟩⟩
  · obtain ⟨rest, hl⟩ := recordsBy_first hi hfirst
    rw [choose, hl]
  · rw [choose, recordsBy_empty hn]
    exact if_pos ((freeRecord_isNone_iff s).2 hfull)
  rw [choose_free hn hfree]
  refine ⟨fun p hready hp hfirst => ?_, fun hnone => ?_⟩
  · have found : (List.finRange 48).find? (continuing s) = some p :=
      find?_first (finRange_ascends 48) (List.mem_finRange p) ((continuing_iff s p).2 hp) fun q _ hq => by
        rw [← Bool.not_eq_true, continuing_iff]
        exact hfirst q hq
    rw [if_pos ((epochReady_iff s).2 hready), found]
  have nothing : (if s.kst.epochReady = true then (List.finRange 48).find? (continuing s) else none) = none := by
    split
    · next hready =>
      exact find?_none_of (fun p => (continuing_iff s p).1) fun p _ =>
        hnone.resolve_left (not_not.2 ((epochReady_iff s).1 hready)) p
    · rfl
  rw [nothing]
  refine ⟨fun l e r hq hl he => ?_, fun hqueue => ?_⟩
  · have found : s.sch.queue.find? (issuable s) = some e := by
      rw [hq, List.find?_append, find?_none_of (fun x => (issuable_iff s x).1) hl,
        List.find?_cons_of_pos ((issuable_iff s e).2 he)]
      rfl
    rw [found]
  rw [find?_none_of (fun x => (issuable_iff s x).1) hqueue]
  refine ⟨fun p hp hfirst => ?_, fun hp => ?_⟩
  · have found : (sweepOrder s.sch.cursor).find? (sweepable s) = some p :=
      find?_first (sweepOrder_pairwise _) (mem_sweepOrder _ p) ((sweepable_iff s p).2 hp) fun q _ hq => by
        rw [← Bool.not_eq_true, sweepable_iff]
        exact hfirst q hq
    rw [found]
    refine ⟨fun hid => ?_, fun hid => ?_⟩
    · dsimp only
      rw [if_pos (Option.isNone_iff_eq_none.2 hid)]
    · dsimp only
      rw [if_neg (mt Option.isNone_iff_eq_none.1 hid)]
  · rw [find?_none_of (fun p => (sweepable_iff s p).1) fun p _ => hp p]

end Sys2Proof.Machine
end

section
/-! PROOFS. The issue of transactions (R58, R61 to R63, R68, R75, R88, R89). -/

namespace Sys2Proof.Machine

/-! ### Tags and nonces -/

theorem nextTag_first (s : State) : FirstFreeTag s (nextTag s) := by
  obtain ⟨tag, hmem, hfree⟩ := exists_free_tag s
  obtain ⟨t, ht⟩ := Option.isSome_iff_exists.1
    (List.find?_isSome.2 ⟨tag, hmem, by rw [hfree]; rfl⟩ : ((tagCandidates s).find? (fun t => !tagInUse s t)).isSome)
  have hnext : nextTag s = t := congrArg (Option.getD · 1) ht
  obtain ⟨hunused, k, hk, hget, hbefore⟩ := List.find?_eq_some_iff_getElem.1 ht
  have length : (tagCandidates s).length = 15 := by simp [tagCandidates]
  have candidate (j : Nat) (hj : j < (tagCandidates s).length) :
      (tagCandidates s)[j] = (s.sch.tagCounter + j) % 15 + 1 := by simp [tagCandidates]
  rw [hnext]
  refine ⟨k, by omega, by rw [← hget, candidate], fun i r hr htag => ?_, fun j hj => ?_⟩
  · have : tagInUse s t = true := (tagInUse_iff s t).2 ⟨i, r, hr, htag⟩
    rw [this] at hunused
    cases hunused
  · have := hbefore j hj
    rw [Bool.not_not, candidate] at this
    exact (tagInUse_iff s _).1 this

theorem requestEpoch_asked (now : Nat) (k : KeyStore) : EpochAsked now k (k.requestEpoch now) := by
  unfold KeyStore.requestEpoch
  refine ⟨fun h => if_pos h, fun h hop => ?_, fun h hop => ?_⟩
  · rw [if_neg h, hop]
    rfl
  · rw [if_neg h]
    cases hk : k.op with
    | idle => exact absurd hk hop
    | programming slot key due => rfl
    | erasing page due => rfl
    | protecting boundary due => rfl
    | epochUpdate due => rfl

theorem stepNonce_frame (s : State) : stepNonce s = { s with
    sch := { s.sch with nonceCounter := (stepNonce s).sch.nonceCounter }, kst := (stepNonce s).kst } := by
  unfold stepNonce
  split <;> rfl

theorem stepNonce_taken (s : State) : NonceTaken s (stepNonce s) := by
  refine ⟨fun h => ?_, fun h => ?_⟩
  · rw [stepNonce, if_neg h]
    exact ⟨rfl, rfl⟩
  · rw [stepNonce, if_pos h]
    exact ⟨rfl, requestEpoch_asked _ _⟩

/-! ### An issue on a state prepared for it -/

/-- `u` is `s` with what the scheduler prepares before an issue: runtime halves, request queue and cursor. -/
def Prepared (s u : State) : Prop :=
  u = { s with run := u.run, sch := { s.sch with queue := u.sch.queue, cursor := u.sch.cursor } }

/-- A record is opened on a state with one free (R61, R62, R68). -/
theorem openRecord_sent {s u : State} (hu : Prepared s u) (hfree : ∃ i : RecNo, s.sch.records[i] = none) {p : Pos}
    {q : Query} {code : Byte} {payload : Bytes} (hq : ∀ tag, queryTelegram p tag q =
      serviceTelegram (BitVec.ofNat 8 (p.val + 1)) 0x01 (BitVec.ofNat 8 tag) code payload) :
    QuerySent p q code payload s (openRecord p q u) ∧
      openRecord p q u = { u with
        sch := { u.sch with records := (openRecord p q u).sch.records, tagCounter := (openRecord p q u).sch.tagCounter },
        fwd := (openRecord p q u).fwd } := by
  obtain ⟨i, hi⟩ : ∃ i, freeRecord u = some i := by
    obtain ⟨i, hi⟩ := hfree
    refine Option.isSome_iff_exists.1 (List.find?_isSome.2 ⟨i, List.mem_finRange i, ?_⟩)
    rw [hu]
    dsimp only
    rw [hi]
    rfl
  have place := freeRecord_some hi
  have first := nextTag_first u
  have opened : openRecord p q u = { u with
      sch := { u.sch with
        records := u.sch.records.set i.val (some { tag := nextTag u, position := p, query := q, attempt := 1,
                                                   deadline := u.now + u.mgt.setup.answerTimeout, state := .issued }) i.isLt,
        tagCounter := nextTag u },
      fwd := { u.fwd with dSending := some (queryTelegram p (nextTag u) q) } } := by
    unfold openRecord
    rw [hi]
    rfl
  generalize nextTag u = tag at first opened
  rw [opened, hq tag]
  refine ⟨⟨i, tag, ?_, ?_, ?_, rfl, ?_⟩, rfl⟩
  · rw [hu] at place
    exact place
  · rw [hu] at first
    exact first
  · rw [hu]
    rfl
  · rw [hu]

theorem queryTelegram_ident (p : Pos) (tag : Nat) : queryTelegram p tag .ident =
    serviceTelegram (BitVec.ofNat 8 (p.val + 1)) 0x01 (BitVec.ofNat 8 tag) 0x01 [] := rfl

theorem queryTelegram_challenge (p : Pos) (tag : Nat) (nonce : Nonce) (slot : SlotNo) :
    queryTelegram p tag (.challenge nonce slot) =
      serviceTelegram (BitVec.ofNat 8 (p.val + 1)) 0x01 (BitVec.ofNat 8 tag) 0x02 (be 8 nonce.toNat) := rfl

/-- An identification is issued: no nonce is taken. -/
theorem issueIdent_sent {s u : State} (hu : Prepared s u) (hfree : ∃ i : RecNo, s.sch.records[i] = none) (p : Pos) :
    QuerySent p .ident 0x01 [] s (issueIdent p u) ∧ (issueIdent p u).sch.nonceCounter = s.sch.nonceCounter ∧
      (issueIdent p u).run = u.run ∧ (issueIdent p u).sch.queue = u.sch.queue ∧
      (issueIdent p u).sch.cursor = u.sch.cursor ∧
      issueIdent p u = { s with run := (issueIdent p u).run, sch := (issueIdent p u).sch, fwd := (issueIdent p u).fwd } := by
  obtain ⟨sent, frame⟩ := openRecord_sent hu hfree (queryTelegram_ident p)
  have : issueIdent p u = openRecord p .ident u := rfl
  rw [this]
  generalize openRecord p .ident u = t at sent frame
  refine ⟨sent, ?_, ?_, ?_, ?_, ?_⟩
  · rw [frame, hu]
  · rw [frame]
  · rw [frame]
  · rw [frame]
  · rw [frame, hu]

/-- A challenge is issued: the nonce is taken and the class's key slot captured (R63, R88). -/
theorem issueChallenge_sent {s u : State} (hu : Prepared s u) (hfree : ∃ i : RecNo, s.sch.records[i] = none) {p : Pos}
    {cls : ClassEntry} (hc : classOf u u.run[p] = some cls) :
    QuerySent p (.challenge (s.kst.epoch ++ s.sch.nonceCounter) cls.keySlot) 0x02
        (be 8 (s.kst.epoch ++ s.sch.nonceCounter).toNat) s (issueChallenge p u) ∧
      NonceTaken s (issueChallenge p u) ∧ (issueChallenge p u).run = u.run ∧
      (issueChallenge p u).sch.queue = u.sch.queue ∧ (issueChallenge p u).sch.cursor = u.sch.cursor ∧
      issueChallenge p u = { s with run := (issueChallenge p u).run, sch := (issueChallenge p u).sch,
                                    fwd := (issueChallenge p u).fwd, kst := (issueChallenge p u).kst } := by
  have nonce : currentNonce u = s.kst.epoch ++ s.sch.nonceCounter := by rw [hu]; rfl
  obtain ⟨sent, frame⟩ := openRecord_sent hu hfree
    (queryTelegram_challenge p (nonce := currentNonce u) (slot := cls.keySlot))
  have issued : issueChallenge p u = stepNonce (openRecord p (.challenge (currentNonce u) cls.keySlot) u) := by
    unfold issueChallenge
    rw [hc]
  rw [issued]
  rw [nonce] at sent frame ⊢
  generalize openRecord p _ u = t at sent frame
  have taken := stepNonce_taken t
  have stepped := stepNonce_frame t
  generalize stepNonce t = v at taken stepped
  obtain ⟨i, tag, hi, hfirst, hrecords, htag, hfwd⟩ := sent
  have counter : t.sch.nonceCounter = s.sch.nonceCounter := by rw [frame, hu]
  have kst : t.kst = s.kst := by rw [frame, hu]
  have now : t.now = s.now := by rw [frame, hu]
  refine ⟨⟨i, tag, hi, hfirst, ?_, ?_, ?_⟩, ?_, ?_, ?_, ?_, ?_⟩
  · rw [stepped]; exact hrecords
  · rw [stepped]; exact htag
  · rw [stepped]; exact hfwd
  · unfold NonceTaken at taken ⊢
    rw [counter, kst, now] at taken
    exact taken
  · rw [stepped, frame]
  · rw [stepped, frame]
  · rw [stepped, frame]
  · rw [stepped, frame, hu]

/-! ### The issues of R64 -/

theorem startRound_eq {p : Pos} {s : State} {e : ClassEntry} (h : classOf s s.run[p] = some e) (kind : RoundKind) :
    startRound p kind s =
      modRun p (fun r => { r with remaining := e.repeatCount, sweepAge := 0, roundKind := kind, phase := .challenging }) s := by
  unfold startRound
  rw [h]

theorem withoutEntry_eq (p : Pos) (q : List Request) :
    withoutEntry p q = q.filter (fun e => decide (e.position ≠ p)) := by
  refine List.filter_congr fun e _ => ?_
  rw [Bool.eq_iff_iff, bne_iff_ne, decide_eq_true_iff]

theorem movedCursor_val (p : Pos) : (p + 1).val = (p.val + 1) % 48 := Fin.val_add p 1

/-- Settles O29: each choice prepares the state and issues. -/
theorem issueFillsARecord : Obligations.IssueFillsARecord := by
  unfold Obligations.IssueFillsARecord
  refine ⟨fun s hfree => ⟨fun e cls hkind hc => ?_, fun p cls hc => ?_, fun p => ?_⟩, fun s i r hr => ?_⟩
  · have hclass : classOf (dequeue e.position s) (dequeue e.position s).run[e.position] = some cls := by
      rw [dequeue, modRun_self]; exact hc
    have filled : fill (.queued e) s = issueChallenge e.position
        (startRound e.position s.run[e.position].roundKind (dequeue e.position s)) := by
      obtain ⟨p, kind⟩ := e
      cases kind with
      | ident => exact absurd rfl hkind
      | new => rfl
      | due => rfl
    rw [startRound_eq hclass] at filled
    obtain ⟨sent, taken, run, queue, cursor, frame⟩ := issueChallenge_sent (s := s)
      (u := modRun e.position (fun r => { r with
        remaining := cls.repeatCount, sweepAge := 0, roundKind := s.run[e.position].roundKind, phase := .challenging })
        (dequeue e.position s)) rfl hfree (by rw [modRun_self]; exact hclass)
    refine ⟨_, filled, sent, taken, ?_, fun q hq => ?_, ?_, cursor, frame⟩
    · rw [run, modRun_self, dequeue, modRun_self]
    · rw [run, modRun_other hq, dequeue, modRun_other hq]
    · rw [queue]
      exact withoutEntry_eq e.position s.sch.queue
  · have continued : fill (.continuation p) s =
        issueChallenge p (modRun p (fun r => { r with remaining := r.remaining - 1 }) s) := rfl
    have swept : fill (.sweepRound p) s = issueChallenge p (startRound p .sweep (moveCursor p s)) := rfl
    rw [startRound_eq (s := moveCursor p s) hc] at swept
    obtain ⟨sent, taken, run, queue, cursor, frame⟩ := issueChallenge_sent (s := s)
      (u := modRun p (fun r => { r with remaining := r.remaining - 1 }) s) rfl hfree (by rw [modRun_self]; exact hc)
    obtain ⟨sent', taken', run', queue', cursor', frame'⟩ := issueChallenge_sent (s := s)
      (u := modRun p (fun r => { r with remaining := cls.repeatCount, sweepAge := 0, roundKind := .sweep,
                                        phase := .challenging }) (moveCursor p s)) rfl hfree (by rw [modRun_self]; exact hc)
    refine ⟨_, _, continued, swept, sent, taken, ?_, fun q hq => ?_, queue, cursor, frame, sent', taken', ?_, fun q hq => ?_,
      queue', ?_, frame'⟩
    · rw [run, modRun_self]
    · rw [run, modRun_other hq]
    · rw [run', modRun_self]
      rfl
    · rw [run', modRun_other hq]
      rfl
    · rw [cursor']
      exact movedCursor_val p
  · have queued : fill (.queued { position := p, kind := .ident }) s = issueIdent p (dequeue p s) := rfl
    have swept : fill (.sweepIdent p) s =
        issueIdent p (modRun p (fun r => { r with phase := .identifying, sweepAge := 0 }) (moveCursor p s)) := rfl
    obtain ⟨sent, counter, run, queue, cursor, frame⟩ := issueIdent_sent (s := s) (u := dequeue p s) rfl hfree p
    obtain ⟨sent', counter', run', queue', cursor', frame'⟩ := issueIdent_sent (s := s)
      (u := modRun p (fun r => { r with phase := .identifying, sweepAge := 0 }) (moveCursor p s)) rfl hfree p
    refine ⟨_, _, queued, swept, sent, counter, ?_, fun q hq => ?_, ?_, cursor, frame, sent', counter', ?_, fun q hq => ?_,
      queue', ?_, frame'⟩
    · rw [run, dequeue, modRun_self]
    · rw [run, dequeue, modRun_other hq]
    · rw [queue]
      exact withoutEntry_eq p s.sch.queue
    · rw [run', modRun_self]
      rfl
    · rw [run', modRun_other hq]
      rfl
    · rw [cursor']
      exact movedCursor_val p
  · refine ⟨_, queryTelegram r.position r.tag r.query, rfl, ?_, fun hq => by rw [hq]; rfl, fun nonce slot hq => by rw [hq]; rfl⟩
    show resend i s = _
    unfold resend
    rw [hr]
    rfl

end Sys2Proof.Machine
end

section
/-! PROOFS. The verification of an answer (02, 03): the acts of EVD and the end of the round, and what they add up to. -/

namespace Sys2Proof.Machine

/-! ### The acts of EVD -/

theorem setRecord_acted (p : Pos) (i : RecNo) (x : Option Record) (s : State) :
    Acted p { run := s.run[p], records := fun v => v.set i.val x i.isLt } s (setRecord i x s) :=
  ⟨rfl, fun _ _ => rfl, rfl, rfl, rfl, rfl, rfl⟩

theorem addEvidence_acted (p : Pos) (w : Int) (s : State) :
    Acted p { run := { s.run[p] with score := clampedScore s.run[p].score w, decayCount := 0 } } s (addEvidence p w s) :=
  modRun_acted p (fun r => { r with score := addScore r.score w, decayCount := 0 }) s

/-- The notices of a verdict change: one where the verdict is another. -/
def report (s : State) (p : Pos) (before : Verdict) (reason : Reason) (r : Runtime) : List Notice :=
  if r.verdict = before then [] else [changeNotice s p before reason r]

/-- A forced verdict (R46). -/
def forced (v : Verdict) (reason : Reason) (r : Runtime) : Runtime := { r with verdict := v, latch := true, reason := some reason }

theorem force_acted (p : Pos) (v : Verdict) (reason : Reason) (s : State) :
    Acted p { run := forced v reason s.run[p], notices := report s p s.run[p].verdict reason (forced v reason s.run[p]) } s
      (force p v reason s) := by
  refine ((modRun_acted p (forced v reason) s).before (notifyChange_acted p s.run[p].verdict reason _)).congr ?_
  rw [modRun_self]
  rfl

/-- A verdict evaluated without a call for a round. -/
def judged (e : ClassEntry) (reason : Reason) (r : Runtime) : Runtime :=
  { r with verdict := judgedVerdict e r, reason := if judgedVerdict e r = r.verdict then r.reason else some reason }

/-- The evaluation of a position that is not HELD calls for no round. -/
theorem evaluate_acted_unheld {p : Pos} {s : State} {e : ClassEntry} (h : classOf s s.run[p] = some e)
    (hp : s.run[p].phase ≠ .held) (reason : Reason) :
    Acted p { run := judged e reason s.run[p], notices := report s p s.run[p].verdict reason (judged e reason s.run[p]) } s
      (evaluate p reason s) := by
  have uncalled : calledDue s.run[p] (judgedVerdict e s.run[p]) = false := decide_eq_false fun h => hp h.1
  refine (evaluate_acted h reason).congr ?_
  unfold evaluateAct judgedRuntime report
  rw [uncalled, show (judged e reason s.run[p]).verdict = judgedVerdict e s.run[p] from rfl]
  by_cases hkept : judgedVerdict e s.run[p] = s.run[p].verdict
  · simp only [if_pos hkept, Bool.false_eq_true, if_false]
    rw [judged, if_pos hkept, hkept]
  · simp only [if_neg hkept, Bool.false_eq_true, if_false]
    rw [judged, if_neg hkept]
    rfl

/-- The entry of a position takes the larger odometer, and is touched (R99). -/
def recordedEntries (p : Pos) (o : Word32) (l : List Sighting) : List Sighting :=
  touchFirst (Sighting.heldBy p) (fun e => { e with lastOdo := some (raiseOdo o e.lastOdo) }) l

/-- The odometer on record, and the wear test (R41, R42). -/
def odometered (e : ClassEntry) (o : Word32) (r : Runtime) : Runtime :=
  { r with lastOdo := some o, worn := r.worn || decide (e.lifeLimit ≠ 0 ∧ e.lifeLimit ≤ o.toNat) }

theorem recordOdometer_acted (p : Pos) (e : ClassEntry) (o : Word32) (s : State) :
    Acted p { run := odometered e o s.run[p], sightings := recordedEntries p o } s (recordOdometer p e o s) := by
  have recorded : Acted p { run := s.run[p], sightings := recordedEntries p o } s (recordSighting p o s) :=
    ⟨rfl, fun _ _ => rfl, rfl, rfl, rfl, rfl, rfl⟩
  refine (recorded.before (modRun_acted p _ _)).congr ?_
  have worn : (e.lifeLimit != 0 && decide (e.lifeLimit ≤ o.toNat)) = decide (e.lifeLimit ≠ 0 ∧ e.lifeLimit ≤ o.toNat) := by
    rw [Bool.decide_and]
    congr 1
    rw [Bool.eq_iff_iff, bne_iff_ne, decide_eq_true_iff]
  rw [worn]
  rfl

theorem recordedEntries_recorded (p : Pos) (o : Word32) (l : List Sighting) : OdometerRecorded p o l (recordedEntries p o l) := by
  have unheld {e : Sighting} (h : p ∉ e.holders) : Sighting.heldBy p e = false := by
    rw [← Bool.not_eq_true, CacheOk.heldBy_iff]; exact h
  refine ⟨fun h => touchFirst_none _ _ l fun e he => unheld (h e he), fun a e b hl ha he => ?_⟩
  rw [hl, recordedEntries, touchFirst_some _ _ a e b (fun x hx => unheld (ha x hx)) ((CacheOk.heldBy_iff p e).2 he)]
  cases e.lastOdo <;> rfl

/-! ### The end of the verification -/

/-- The record of a position is the one freed: no other is its own. -/
theorem withoutRecord_freed {s : State} (hd : RecordsDistinct s) {i : RecNo} {rec : Record} (hr : s.sch.records[i] = some rec) :
    withoutRecord rec.position (s.sch.records.set i.val none i.isLt) = s.sch.records.set i.val none i.isLt := by
  refine Vector.ext fun j hj => ?_
  have := withoutRecord_getElem rec.position (s.sch.records.set i.val none i.isLt) ⟨j, hj⟩
  refine this.trans ?_
  show Option.filter _ (s.sch.records.set i.val none i.isLt)[j] = (s.sch.records.set i.val none i.isLt)[j]
  by_cases hij : i.val = j
  · subst hij
    rw [Vector.getElem_set_self]
    rfl
  · rw [Vector.getElem_set_ne _ _ hij]
    cases hx : s.sch.records[j] with
    | none => rfl
    | some x =>
      have apart : x.position ≠ rec.position := fun e => hij (Fin.val_eq_of_eq
        (hd.apart ⟨j, hj⟩ i x rec hx hr (.inr e)).symm)
      simp [Option.filter, apart]

/-- The round ends after an act that has freed the position's record (R60). -/
theorem Acted.ended {p : Pos} {a : Act} {s t : State} (h : Acted p a s t)
    (hr : withoutRecord p (a.records s.sch.records) = a.records s.sch.records) :
    Acted p { a with run := { a.run with remaining := 0, phase := .held } } s (endRound p t) := by
  obtain ⟨run, others, queue, records, sightings, notices, frame⟩ := h.before (endRound_acted p t)
  refine ⟨?_, others, queue, records.trans hr, sightings, notices.trans ?_, frame⟩
  · rw [run, ← h.run]
    rfl
  · show offered (a.notices ++ []) s = _
    rw [List.append_nil]

/-- What a verified answer leaves: the record freed, and the outcome of EVD in `r`. -/
def answerAct (s : State) (i : RecNo) (p : Pos) (reason : Reason) (sightings : List Sighting → List Sighting) (r : Runtime) :
    Act :=
  { run := r, records := fun v => v.set i.val none i.isLt, sightings, notices := report s p s.run[p].verdict reason r }

theorem answerAct_report {s t : State} {i : RecNo} {p : Pos} {reason : Reason} {sightings : List Sighting → List Sighting}
    {r r' : Runtime} (h : Acted p { answerAct s i p reason sightings r with run := r' } s t) :
    VerdictReported s t p s.run[p].verdict r.verdict reason r.identity r.score := .of_offered h.notices

theorem answerAct_sch {s t : State} {i : RecNo} {p : Pos} {reason : Reason} {sightings : List Sighting → List Sighting}
    {r r' : Runtime} (h : Acted p { answerAct s i p reason sightings r with run := r' } s t) :
    t.sch = { s.sch with records := s.sch.records.set i.val none i.isLt } := by
  rw [h.frame]
  dsimp only
  rw [h.queue, h.records]
  rfl

/-- The verification before EVD: the record is freed, key_missing cleared (R71). -/
def opened (i : RecNo) (p : Pos) (s : State) : State := modRun p (fun r => { r with keyMissing := false }) (setRecord i none s)

theorem opened_acted (i : RecNo) (p : Pos) (s : State) :
    Acted p { run := { s.run[p] with keyMissing := false }, records := fun v => v.set i.val none i.isLt } s (opened i p s) :=
  (setRecord_acted p i none s).before (modRun_acted p (fun r => { r with keyMissing := false }) (setRecord i none s))

/-- A verified answer ends its round by ROLLBACK or a latched FAIL, or where no challenge is left to come (R43, R72). -/
theorem verify_eq {s : State} {i : RecNo} {rec : Record} {slot : SlotNo} {key : Key} {id : Identity} {e : ClassEntry}
    (hkey : s.kst.slots[slot] = .programmed key) (hid : s.run[rec.position].identity = some id)
    (hcls : classOf s s.run[rec.position] = some e) (nonce : Nonce) (odo response : Word32) :
    let u := opened i rec.position s
    let equal := responseWord key nonce id odo == response
    let v := if equal then passAnswer rec.position e odo u else failAnswer rec.position e u
    verify i rec nonce slot odo response s =
      if answerEndsRound u rec.position e equal odo = true ∨ v.run[rec.position].remaining = 0 then endRound rec.position v
      else v := by
  have hid' : (opened i rec.position s).run[rec.position].identity = some id := by
    rw [(opened_acted i rec.position s).run]
    exact hid
  have hcls' : classOf (opened i rec.position s) (opened i rec.position s).run[rec.position] = some e := by
    rw [(opened_acted i rec.position s).run]
    exact hcls
  unfold verify
  simp only [hkey]
  unfold opened at hid' hcls' ⊢
  simp only [hid', hcls']

/-! ### The outcomes of a verification -/

section

variable {s u v : State} {i : RecNo} {p : Pos} {e : ClassEntry} {r : Runtime} {reason : Reason}
  {sightings : List Sighting → List Sighting}

theorem report_congr (hc : u.fwd.cycleCount = s.fwd.cycleCount) (before : Verdict) :
    report u p before reason r = report s p before reason r := by
  unfold report changeNotice
  rw [hc]

theorem classOf_congr (h : u.mgt.classes = s.mgt.classes) (r : Runtime) : classOf u r = classOf s r := by
  unfold classOf
  rw [h]

/-- Evidence has been added, and the verdict is evaluated. -/
theorem answer_evaluated (h : Acted p { run := r, records := fun v => v.set i.val none i.isLt, sightings } s u)
    (hcls : classOf s r = some e) (hp : r.phase ≠ .held) (hv : r.verdict = s.run[p].verdict) :
    Acted p (answerAct s i p reason sightings (judged e reason r)) s (evaluate p reason u) := by
  have hrun : u.run[p] = r := h.run
  refine (h.before (evaluate_acted_unheld (by rw [classOf_congr h.classes, hrun, hcls]) (by rw [hrun]; exact hp) reason)).congr ?_
  rw [hrun, hv, report_congr h.cycleCount]
  rfl

/-- Evidence has been added, and the verdict is forced. -/
theorem answer_forced (h : Acted p { run := r, records := fun v => v.set i.val none i.isLt, sightings } s u)
    (hv : r.verdict = s.run[p].verdict) (after : Verdict) :
    Acted p (answerAct s i p reason sightings (forced after reason r)) s (force p after reason u) := by
  have hrun : u.run[p] = r := h.run
  refine (h.before (force_acted p after reason u)).congr ?_
  rw [hrun, hv, report_congr h.cycleCount]
  rfl

/-- A forced COUNTERFEIT ends the round. -/
theorem counterfeit_forced (hfree : withoutRecord p (s.sch.records.set i.val none i.isLt) = s.sch.records.set i.val none i.isLt)
    (score : Int)
    (h : Acted p (answerAct s i p reason id (forced .counterfeit reason
      { s.run[p] with score, decayCount := 0, keyMissing := false })) s v) :
    CounterfeitForced s (endRound p v) i p score reason :=
  have ended := h.ended hfree
  { run := ended.run, others := ended.others, report := answerAct_report ended, sch := answerAct_sch ended,
    sightings := ended.sightings, frame := ended.frame }

/-- The round ends where no challenge is left to come (R72). -/
def closed (p : Pos) (v : State) : State := if v.run[p].remaining = 0 then endRound p v else v

/-- An evaluated answer. The fields of the odometer are free in `r`. -/
theorem answer_handled (hfree : withoutRecord p (s.sch.records.set i.val none i.isLt) = s.sch.records.set i.val none i.isLt)
    (hp : s.run[p].phase = .challenging) {odoRef : Option OdoRef} {lastOdo : Option Word32} {worn : Bool}
    (hr : r = { s.run[p] with odoRef, lastOdo, worn }) (score : Int)
    (h : Acted p (answerAct s i p reason sightings (judged e reason
      { r with score, decayCount := 0, keyMissing := false })) s v) :
    AnswerHandled s (closed p v) i p e score reason r ∧ (closed p v).sightings = sightings s.sightings := by
  subst hr
  have hrun : v.run[p] = judged e reason
      { s.run[p] with odoRef, lastOdo, worn, score, decayCount := 0, keyMissing := false } := h.run
  have hstep := judgedVerdict_step e { s.run[p] with odoRef, lastOdo, worn, score, decayCount := 0, keyMissing := false }
  unfold closed
  rw [hrun]
  by_cases hleft : s.run[p].remaining = 0
  · have ended := h.ended hfree
    rw [show (judged e reason { s.run[p] with
      odoRef, lastOdo, worn, score, decayCount := 0, keyMissing := false }).remaining = s.run[p].remaining from rfl, if_pos hleft]
    have hverdict : (endRound p v).run[p].verdict = judgedVerdict e
      { s.run[p] with odoRef, lastOdo, worn, score, decayCount := 0, keyMissing := false } := congrArg Runtime.verdict ended.run
    refine ⟨⟨hverdict ▸ hstep, ?_, ended.others, hverdict ▸ answerAct_report ended, answerAct_sch ended, ended.frame⟩,
      ended.sightings⟩
    rw [hverdict, if_pos hleft]
    refine ended.run.trans ?_
    rw [← hleft]
    rfl
  · rw [show (judged e reason { s.run[p] with
      odoRef, lastOdo, worn, score, decayCount := 0, keyMissing := false }).remaining = s.run[p].remaining from rfl, if_neg hleft]
    have hverdict : v.run[p].verdict = judgedVerdict e
      { s.run[p] with odoRef, lastOdo, worn, score, decayCount := 0, keyMissing := false } := congrArg Runtime.verdict h.run
    refine ⟨⟨hverdict ▸ hstep, ?_, h.others, hverdict ▸ answerAct_report h, answerAct_sch h, h.frame⟩, h.sightings⟩
    rw [hverdict, if_neg hleft, ← hp]
    exact hrun

end

end Sys2Proof.Machine
end

section
/-! PROOFS. An answer verified: what EVD makes of it (02, 2.4), and an answer whose slot holds no key (R71). -/

namespace Sys2Proof.Machine

/-! ### The odometer tests -/

/-- The finding of a passing answer at a position, against the state before the answer. -/
def findingAt (s : State) (p : Pos) (e : ClassEntry) (odo : Word32) : OdoFinding :=
  odoFinding e s.run[p].odoRef (sightedOdo s p) s.run[p].strokes odo

theorem unheldBy {p : Pos} {e : Sighting} (h : p ∉ e.holders) : Sighting.heldBy p e = false := by
  rw [← Bool.not_eq_true, CacheOk.heldBy_iff]
  exact h

/-- The last odometer of a position's entry is that of the first entry with the position as a holder (R100). -/
theorem sightedOdo_split {s : State} {p : Pos} {a : List Sighting} {x : Sighting} {b : List Sighting}
    (h : s.sightings = a ++ x :: b) (ha : ∀ y ∈ a, p ∉ y.holders) (hx : p ∈ x.holders) : sightedOdo s p = x.lastOdo := by
  unfold sightedOdo
  rw [h, List.find?_append, List.find?_eq_none.2 (fun y hy => by rw [unheldBy (ha y hy)]; simp), Option.none_or,
    List.find?_cons_of_pos ((CacheOk.heldBy_iff p x).2 hx)]

/-- A last odometer on record is that of an entry with the position as a holder. -/
theorem sightedOdo_some {s : State} {p : Pos} {l : Word32} (h : sightedOdo s p = some l) :
    ∃ x ∈ s.sightings, p ∈ x.holders ∧ x.lastOdo = some l := by
  unfold sightedOdo at h
  cases hf : s.sightings.find? (Sighting.heldBy p) with
  | none =>
    rw [hf] at h
    cases h
  | some x =>
    rw [hf] at h
    exact ⟨x, List.mem_of_find?_eq_some hf, (CacheOk.heldBy_iff p x).1 (List.find?_some hf), h⟩

/-- A first pass (R38, R100). -/
theorem findingAt_first {s : State} {p : Pos} {e : ClassEntry} {odo : Word32} (href : s.run[p].odoRef = none)
    (h : ∀ x ∈ s.sightings, p ∈ x.holders → ∀ l, x.lastOdo = some l → l ≤ odo) : findingAt s p e odo = .firstPass := by
  unfold findingAt odoFinding
  rw [href]
  cases hl : sightedOdo s p with
  | none => rfl
  | some l =>
    obtain ⟨x, hx, hp, hlast⟩ := sightedOdo_some hl
    exact if_neg (BitVec.not_lt.2 (h x hx hp l hlast))

/-- A first pass below the sighting entry's odometer (R38). -/
theorem findingAt_firstBelow {s : State} {p : Pos} {e : ClassEntry} {odo l : Word32} (href : s.run[p].odoRef = none)
    (hl : sightedOdo s p = some l) (h : odo < l) : findingAt s p e odo = .rolledBack := by
  unfold findingAt odoFinding
  rw [href, hl]
  exact if_pos h

/-- A later pass below the reference (R40). -/
theorem findingAt_laterBelow {s : State} {p : Pos} {e : ClassEntry} {odo : Word32} {ref : OdoRef}
    (href : s.run[p].odoRef = some ref) (h : odo < ref.odo) : findingAt s p e odo = .rolledBack := by
  unfold findingAt odoFinding
  rw [href]
  exact if_pos h

/-- The three findings of a later pass (R39, R40). -/
theorem findingAt_later {s : State} {p : Pos} {e : ClassEntry} {odo : Word32} {ref : OdoRef} {n expected tol : Nat} {w : Int}
    {reason : Reason} (href : s.run[p].odoRef = some ref) (hle : ref.odo ≤ odo) (hn : n = s.run[p].strokes - ref.strokes)
    (hexpected : expected = ref.odo.toNat + n) (htol : tol = e.odoTol + n * e.slack / 256)
    (h : (odo.toNat + tol < expected ∧ reason = .lag ∧
        w = -(min (e.lagCap : Int) (((expected - odo.toNat - tol) * e.lagRate : Nat) : Int))) ∨
      (expected + tol < odo.toNat ∧ reason = .ahead ∧ w = e.wAhead) ∨
      (expected ≤ odo.toNat + tol ∧ odo.toNat ≤ expected + tol ∧ reason = .odoOk ∧ w = e.wOdoOk)) :
    findingAt s p e odo = .later w reason := by
  have hex : expectedOdo ref s.run[p].strokes = expected := by rw [hexpected, hn, expectedOdo]
  have ht : tolerance e ref s.run[p].strokes = tol := by rw [htol, hn, tolerance]
  unfold findingAt odoFinding
  rw [href]
  refine (if_neg (BitVec.not_lt.2 hle)).trans ?_
  unfold laterFinding
  rw [hex, ht]
  rcases h with ⟨hlag, rfl, rfl⟩ | ⟨hahead, rfl, rfl⟩ | ⟨hlow, hhigh, rfl, rfl⟩
  · rw [if_pos (show tol < expected - odo.toNat by omega), Nat.cast_min]
  · rw [if_neg (show ¬ tol < expected - odo.toNat by omega)]
    exact if_pos (show tol < odo.toNat - expected by omega)
  · rw [if_neg (show ¬ tol < expected - odo.toNat by omega)]
    exact if_neg (show ¬ tol < odo.toNat - expected by omega)

/-! ### Passing and failing answers -/

section

variable {s : State} {i : RecNo} {p : Pos} {e : ClassEntry} {odo : Word32}

theorem unheld_of_challenging {r : Runtime} (h : r.phase = .challenging) : r.phase ≠ .held := by
  rw [h]
  decide

/-- Evidence added after the verification has begun. -/
theorem opened_evidence (w : Int) :
    Acted p { run := { s.run[p] with keyMissing := false, score := clampedScore s.run[p].score w, decayCount := 0 },
              records := fun v => v.set i.val none i.isLt } s (addEvidence p w (opened i p s)) := by
  have h := addEvidence_acted p w (opened i p s)
  rw [(opened_acted i p s).run] at h
  exact (opened_acted i p s).before h

theorem findingAt_evidence (w : Int) :
    odoFinding e (addEvidence p w (opened i p s)).run[p].odoRef (sightedOdo (addEvidence p w (opened i p s)) p)
      (addEvidence p w (opened i p s)).run[p].strokes odo = findingAt s p e odo := by
  rw [(opened_evidence w).run]
  rfl

/-- A FAIL (R33). -/
theorem failAnswer_unlatched (hcls : classOf s s.run[p] = some e) (hp : s.run[p].phase = .challenging)
    (h : e.failLatch = false) :
    Acted p (answerAct s i p .fail id (judged e .fail
      { s.run[p] with score := clampedScore s.run[p].score e.wFail, decayCount := 0, keyMissing := false })) s
      (failAnswer p e (opened i p s)) := by
  unfold failAnswer
  rw [h]
  exact answer_evaluated (opened_evidence e.wFail) hcls (unheld_of_challenging hp) rfl

/-- A FAIL with fail_latch (R33, R46). -/
theorem failAnswer_latched (h : e.failLatch = true) :
    Acted p (answerAct s i p .fail id (forced .counterfeit .fail
      { s.run[p] with score := clampedScore s.run[p].score e.wFail, decayCount := 0, keyMissing := false })) s
      (failAnswer p e (opened i p s)) := by
  unfold failAnswer
  rw [h]
  exact answer_forced (opened_evidence e.wFail) rfl .counterfeit

/-- A ROLLBACK (R32). -/
theorem passAnswer_rolledBack (h : findingAt s p e odo = .rolledBack) :
    Acted p (answerAct s i p .rollback id (forced .counterfeit .rollback
      { s.run[p] with score := -1000, decayCount := 0, keyMissing := false })) s (passAnswer p e odo (opened i p s)) := by
  have low := (opened_evidence (s := s) (i := i) (p := p) e.wPass).before
    (modRun_acted p (fun r => { r with score := -1000, decayCount := 0 }) _)
  rw [(opened_evidence e.wPass).run] at low
  unfold passAnswer
  simp only [findingAt_evidence, h]
  exact answer_forced low rfl .counterfeit

/-- A first pass (R37, R38, R41, R42). -/
theorem passAnswer_first (hcls : classOf s s.run[p] = some e) (hp : s.run[p].phase = .challenging)
    (h : findingAt s p e odo = .firstPass) :
    Acted p (answerAct s i p .pass (recordedEntries p odo) (judged e .pass
      { odometered e odo { s.run[p] with odoRef := some { odo, strokes := s.run[p].strokes } } with
        score := clampedScore s.run[p].score e.wPass, decayCount := 0, keyMissing := false })) s
      (passAnswer p e odo (opened i p s)) := by
  have referred := (opened_evidence (s := s) (i := i) (p := p) e.wPass).before
    (modRun_acted p (fun r => { r with odoRef := some { odo, strokes := r.strokes } }) _)
  have recorded := referred.before (recordOdometer_acted p e odo _)
  rw [referred.run] at recorded
  rw [(opened_evidence e.wPass).run] at recorded
  unfold passAnswer
  simp only [findingAt_evidence, h]
  exact answer_evaluated recorded hcls (unheld_of_challenging hp) rfl

/-- A later pass (R37, R39 to R42). -/
theorem passAnswer_later (hcls : classOf s s.run[p] = some e) (hp : s.run[p].phase = .challenging) {w : Int} {reason : Reason}
    (h : findingAt s p e odo = .later w reason) :
    Acted p (answerAct s i p reason (recordedEntries p odo) (judged e reason
      { odometered e odo s.run[p] with
        score := clampedScore (clampedScore s.run[p].score e.wPass) w, decayCount := 0, keyMissing := false })) s
      (passAnswer p e odo (opened i p s)) := by
  have added := (opened_evidence (s := s) (i := i) (p := p) e.wPass).before (addEvidence_acted p w _)
  have recorded := added.before (recordOdometer_acted p e odo _)
  rw [added.run] at recorded
  rw [(opened_evidence e.wPass).run] at recorded
  unfold passAnswer
  simp only [findingAt_evidence, h]
  exact answer_evaluated recorded hcls (unheld_of_challenging hp) rfl

end

/-! ### The verification -/

section

variable {s : State} {i : RecNo} {rec : Record} {slot : SlotNo} {key : Key} {id : Identity} {e : ClassEntry} {nonce : Nonce}
  {odo response : Word32}

/-- A wrong answer: FAIL, and the round ends by its latch or where no challenge is left to come. -/
theorem verify_fails (hkey : s.kst.slots[slot] = .programmed key) (hid : s.run[rec.position].identity = some id)
    (hcls : classOf s s.run[rec.position] = some e) (h : response ≠ responseWord key nonce id odo) :
    verify i rec nonce slot odo response s =
      if e.failLatch = true then endRound rec.position (failAnswer rec.position e (opened i rec.position s))
      else closed rec.position (failAnswer rec.position e (opened i rec.position s)) := by
  have unequal : (responseWord key nonce id odo == response) = false := beq_false_of_ne (Ne.symm h)
  refine (verify_eq hkey hid hcls nonce odo response).trans ?_
  simp only [unequal, answerEndsRound, Bool.false_eq_true, if_false, closed]
  cases e.failLatch <;> simp

/-- A passing answer: the round ends by ROLLBACK or where no challenge is left to come. -/
theorem verify_passes (hkey : s.kst.slots[slot] = .programmed key) (hid : s.run[rec.position].identity = some id)
    (hcls : classOf s s.run[rec.position] = some e) (h : response = responseWord key nonce id odo) :
    verify i rec nonce slot odo response s =
      if findingAt s rec.position e odo = .rolledBack then
        endRound rec.position (passAnswer rec.position e odo (opened i rec.position s))
      else closed rec.position (passAnswer rec.position e odo (opened i rec.position s)) := by
  have equal : (responseWord key nonce id odo == response) = true := beq_iff_eq.2 h.symm
  have finding : answerEndsRound (opened i rec.position s) rec.position e true odo = true ↔
      findingAt s rec.position e odo = .rolledBack := by
    unfold answerEndsRound
    rw [if_pos rfl, beq_iff_eq, (opened_acted i rec.position s).run]
    rfl
  refine (verify_eq hkey hid hcls nonce odo response).trans ?_
  simp only [equal, if_true, finding, closed]
  by_cases hback : findingAt s rec.position e odo = .rolledBack
  · rw [if_pos (.inl hback), if_pos hback]
  · rw [if_neg hback]
    simp only [hback, false_or]

/-- A verified answer is handled by EVD (R32, R33, R37 to R42). -/
theorem verify_judged (hd : RecordsDistinct s) (hrec : s.sch.records[i] = some rec)
    (hkey : s.kst.slots[slot] = .programmed key) (hp : s.run[rec.position].phase = .challenging)
    (hid : s.run[rec.position].identity = some id) (hcls : classOf s s.run[rec.position] = some e) :
    AnswerJudged s (verify i rec nonce slot odo response s) i rec.position e (responseWord key nonce id odo) response odo := by
  have hfree := withoutRecord_freed hd hrec
  have below (hequal : response = responseWord key nonce id odo) (h : findingAt s rec.position e odo = .rolledBack) :
      CounterfeitForced s (verify i rec nonce slot odo response s) i rec.position (-1000) .rollback := by
    rw [verify_passes hkey hid hcls hequal, if_pos h]
    exact counterfeit_forced hfree _ (passAnswer_rolledBack h)
  refine ⟨fun hunequal => ?_, fun hequal href h => ?_, fun hequal href a x b l hsplit ha hx hl hlt => ?_,
    fun hequal ref href hlt => below hequal (findingAt_laterBelow href hlt),
    fun hequal ref n expected tol w reason href hle hn hexpected htol h => ?_⟩
  · rw [verify_fails hkey hid hcls hunequal]
    cases hlatch : e.failLatch with
    | false =>
      have handled := answer_handled hfree hp rfl _ (failAnswer_unlatched (i := i) hcls hp hlatch)
      exact ⟨handled.2, fun _ => handled.1, nofun⟩
    | true =>
      have forced := counterfeit_forced hfree _ (failAnswer_latched (s := s) (i := i) hlatch)
      exact ⟨forced.sightings, nofun, fun _ => forced⟩
  · have found := findingAt_first (e := e) href h
    rw [verify_passes hkey hid hcls hequal, if_neg (by rw [found]; decide)]
    have handled := answer_handled hfree hp rfl _ (passAnswer_first (i := i) hcls hp found)
    exact ⟨handled.1, handled.2 ▸ recordedEntries_recorded _ _ _⟩
  · exact below hequal (findingAt_firstBelow href ((sightedOdo_split hsplit ha hx).trans hl) hlt)
  · have found := findingAt_later href hle hn hexpected htol h
    rw [verify_passes hkey hid hcls hequal, if_neg (by rw [found]; nofun)]
    have handled := answer_handled hfree hp rfl _ (passAnswer_later (i := i) hcls hp found)
    exact ⟨handled.1, handled.2 ▸ recordedEntries_recorded _ _ _⟩

/-- An answer whose slot holds no key ends the round unjudged (R60, R71). -/
theorem verify_keyless (hd : RecordsDistinct s) (hrec : s.sch.records[i] = some rec)
    (hkey : s.kst.slots[slot] = .blank ∨ s.kst.slots[slot] = .faulty) :
    KeyMissingEnd s (verify i rec nonce slot odo response s) i rec.position := by
  have ended := ((setRecord_acted rec.position i none s).before
    (modRun_acted rec.position (fun r => { r with keyMissing := true }) (setRecord i none s))).ended
      (withoutRecord_freed hd hrec)
  have latched : verify i rec nonce slot odo response s =
      latchKeyMissing (endRound rec.position (modRun rec.position (fun r => { r with keyMissing := true }) (setRecord i none s))) := by
    unfold verify
    rcases hkey with hkey | hkey <;> simp only [hkey]
  rw [latched]
  generalize endRound rec.position _ = u at ended ⊢
  obtain ⟨run, others, queue, records, sightings, notices, frame⟩ := ended
  refine ⟨others, run, ?_⟩
  simp only [offered, List.foldl_nil, Prod.mk.injEq, Act.before, List.append_nil] at notices queue records sightings
  unfold latchKeyMissing
  conv_lhs => rw [frame]
  dsimp only
  rw [queue, records, sightings, notices.1, notices.2]
  rfl

end

end Sys2Proof.Machine
end

section
/-! PROOFS. Verifier replies (03, 3.8): which record a reply is for, and what each kind of reply and the deadline of a record do
(O30, O34 to O38). -/

namespace Sys2Proof.Machine

/-! ### The record a reply is for (R69) -/

theorem matchesRecord_iff (r : Reply) (rec : Record) : r.matchesRecord rec = true ↔
    r.tag.toNat = rec.tag ∧ r.node.toNat = rec.position.val + 1 ∧ r.suits rec.query = true := by
  rw [Reply.matchesRecord, Bool.and_eq_true, Bool.and_eq_true, beq_iff_eq, beq_iff_eq, and_assoc]

/-- The record found matches. -/
theorem matchReply_matches {s : State} {r : Reply} {i : RecNo} (h : matchReply s r = some i) :
    ∃ rec, s.sch.records[i] = some rec ∧ r.matchesRecord rec = true := by
  have found := List.find?_some h
  generalize hrec : s.sch.records[i] = x at found
  cases x with
  | none => cases found
  | some rec => exact ⟨rec, rfl, found⟩

/-- Tags are apart, so a record that matches is the record found. -/
theorem matchReply_eq {s : State} {r : Reply} {i : RecNo} {rec : Record} (hd : RecordsDistinct s)
    (hrec : s.sch.records[i] = some rec) (hm : r.matchesRecord rec = true) : matchReply s r = some i := by
  cases h : matchReply s r with
  | none =>
    have unmatched := List.find?_eq_none.1 h i (List.mem_finRange i)
    rw [hrec] at unmatched
    exact absurd hm unmatched
  | some j =>
    obtain ⟨rec', hrec', hm'⟩ := matchReply_matches h
    have tag := ((matchesRecord_iff r rec).1 hm).1
    have tag' := ((matchesRecord_iff r rec').1 hm').1
    rw [hd.apart i j rec rec' hrec hrec' (.inl (tag.symm.trans tag'))]

/-- A reply is discarded where what it matches does not wait for it (R69, R71, R74). -/
theorem takeReply_fixed {r : Reply} {s : State}
    (h : ∀ (i : RecNo) (rec : Record), s.sch.records[i] = some rec → r.matchesRecord rec = true →
      (r.code = codeNoTag → rec.state ≠ .issued) ∧
        (r.code ≠ codeNoTag → ∃ odo response n, rec.state = .awaitingKey odo response n)) : takeReply r s = s := by
  unfold takeReply
  cases hm : matchReply s r with
  | none => rfl
  | some i =>
    obtain ⟨rec, hrec, hmatch⟩ := matchReply_matches hm
    obtain ⟨unissued, held⟩ := h i rec hrec hmatch
    simp only [hrec]
    by_cases hcode : r.code = codeNoTag
    · rw [if_pos hcode]
      unfold takeNoTag
      cases hstate : rec.state with
      | issued => exact absurd hstate (unissued hcode)
      | resendWaiting _ => rfl
      | awaitingKey _ _ _ => rfl
    · rw [if_neg hcode]
      obtain ⟨odo, response, n, hstate⟩ := held hcode
      cases rec.query <;> simp only [takeIdent, takeAnswer, hstate]

section

variable {s : State} {r : Reply} {i : RecNo} {rec : Record} (hd : RecordsDistinct s) (hrec : s.sch.records[i] = some rec)
  (hm : r.matchesRecord rec = true)

include hd hrec hm

theorem takeReply_ident (hcode : r.code = codeIdent) (hq : rec.query = .ident) :
    takeReply r s = takeIdent i rec r.payload s := by
  have other : r.code ≠ codeNoTag := by
    rw [hcode]
    decide
  unfold takeReply
  simp only [matchReply_eq hd hrec hm, hrec, hq]
  exact if_neg other

theorem takeReply_answer (hcode : r.code = codeAnswer) {nonce : Nonce} {slot : SlotNo} (hq : rec.query = .challenge nonce slot) :
    takeReply r s = takeAnswer i rec nonce slot r.payload s := by
  have other : r.code ≠ codeNoTag := by
    rw [hcode]
    decide
  unfold takeReply
  simp only [matchReply_eq hd hrec hm, hrec, hq]
  exact if_neg other

theorem takeReply_noTag (hcode : r.code = codeNoTag) : takeReply r s = takeNoTag i rec s := by
  unfold takeReply
  simp only [matchReply_eq hd hrec hm, hrec]
  exact if_pos hcode

end

/-! ### The rows of a reply -/

/-- A reply that reaches the part is handed to SCH. -/
theorem ReplyFor.taken {s : State} {node : Byte} {f : Frame} {code : Byte} {i : RecNo} {rec : Record}
    (h : ReplyFor s node f code i rec) :
    whenLive (takeVerifierReply node code f) s =
      .next (takeReply { node, tag := f.tag, code, payload := f.payload } s) := by
  have verifier : node ≠ 0 := fun h0 => by
    have := h.node
    rw [h0] at this
    exact absurd this (Nat.succ_ne_zero _).symm
  rw [whenLive_of_live h.live]
  exact congrArg _ (if_pos ⟨frame_good_of_tests h.good, verifier⟩)

/-- A reply for a record matches it where it suits the query. -/
theorem ReplyFor.matched {s : State} {node : Byte} {f : Frame} {code : Byte} {i : RecNo} {rec : Record}
    (h : ReplyFor s node f code i rec)
    (hsuits : Reply.suits { node, tag := f.tag, code, payload := f.payload } rec.query = true) :
    Reply.matchesRecord { node, tag := f.tag, code, payload := f.payload } rec = true :=
  (matchesRecord_iff _ _).2 ⟨h.tag, h.node, hsuits⟩

theorem identPayload_length (id : Identity) : (identPayload id).length = 11 := by
  simp [identPayload]

theorem answerPayload_length (nonce : Nonce) (odo response : Word32) : (answerPayload nonce odo response).length = 16 := by
  simp [answerPayload]

theorem identityOf_payload (id : Identity) : identityOf (identPayload id) = id := by
  have serial : fieldNat 0 6 (identPayload id) = id.serial.toNat := by
    rw [identPayload, List.append_assoc]
    exact fieldNat_be 6 _ _ id.serial.isLt
  have cls : fieldNat 6 2 (identPayload id) = id.cls.toNat := by
    rw [identPayload, List.append_assoc, fieldNat_skip _ _ _ _ (by simp), be_length]
    exact fieldNat_be 2 _ _ id.cls.isLt
  have lot : fieldNat 8 3 (identPayload id) = id.lot.toNat := by
    rw [identPayload, List.append_assoc, fieldNat_skip _ _ _ _ (by simp), be_length, fieldNat_skip _ _ _ _ (by simp), be_length]
    exact fieldNat_be_end 3 _ id.lot.isLt
  unfold identityOf
  rw [serial, cls, lot, BitVec.ofNat_toNat, BitVec.ofNat_toNat, BitVec.ofNat_toNat, BitVec.setWidth_eq, BitVec.setWidth_eq,
    BitVec.setWidth_eq]

theorem answerOf_payload (nonce : Nonce) (odo response : Word32) :
    answerOf (answerPayload nonce odo response) = { echo := nonce, odo, response } := by
  have echoed : fieldNat 0 8 (answerPayload nonce odo response) = nonce.toNat := by
    rw [answerPayload, List.append_assoc]
    exact fieldNat_be 8 _ _ nonce.isLt
  have odometer : fieldNat 8 4 (answerPayload nonce odo response) = odo.toNat := by
    rw [answerPayload, List.append_assoc, fieldNat_skip _ _ _ _ (by simp), be_length]
    exact fieldNat_be 4 _ _ odo.isLt
  have word : fieldNat 12 4 (answerPayload nonce odo response) = response.toNat := by
    rw [answerPayload, List.append_assoc, fieldNat_skip _ _ _ _ (by simp), be_length, fieldNat_skip _ _ _ _ (by simp), be_length]
    exact fieldNat_be_end 4 _ response.isLt
  unfold answerOf
  rw [echoed, odometer, word, BitVec.ofNat_toNat, BitVec.ofNat_toNat, BitVec.ofNat_toNat, BitVec.setWidth_eq,
    BitVec.setWidth_eq, BitVec.setWidth_eq]

/-- An IDENT for a waiting identification. -/
theorem exec_ident {s : State} {node : Byte} {f : Frame} {i : RecNo} {rec : Record} {id : Identity}
    (h : ReplyFor s node f 0x90 i rec) (hd : RecordsDistinct s) (hq : rec.query = .ident) (hw : rec.waits)
    (hp : f.payload = identPayload id) :
    exec (.ident node f) s = .next (identify rec.position id (setRecord i none s)) := by
  have suits : Reply.suits { node, tag := f.tag, code := 0x90, payload := f.payload } rec.query = true := by
    rw [hq, hp]
    simp [Reply.suits, codeIdent, identPayload_length]
  refine h.taken.trans (congrArg _ ?_)
  rw [takeReply_ident hd h.held (h.matched suits) rfl hq]
  unfold takeIdent
  rw [hp, identityOf_payload]
  rcases hw with hstate | ⟨n, hstate⟩ <;> simp only [hstate]

/-- An ANSWER for a waiting challenge. -/
theorem exec_answer {s : State} {node : Byte} {f : Frame} {i : RecNo} {rec : Record} {nonce : Nonce} {slot : SlotNo}
    {odo response : Word32} (h : ReplyFor s node f 0x91 i rec) (hd : RecordsDistinct s)
    (hq : rec.query = .challenge nonce slot) (hw : rec.waits) (hp : f.payload = answerPayload nonce odo response) :
    exec (.answer node f) s = .next (if s.kst.busy = true then
        setRecord i (some { rec with state := .awaitingKey odo response (nextOrder (arrivalOrder s)) }) s
      else verify i rec nonce slot odo response s) := by
  have suits : Reply.suits { node, tag := f.tag, code := 0x91, payload := f.payload } rec.query = true := by
    rw [hq, hp]
    simp [Reply.suits, codeAnswer, answerPayload_length, answerOf_payload]
  refine h.taken.trans (congrArg _ ?_)
  rw [takeReply_answer hd h.held (h.matched suits) rfl hq]
  unfold takeAnswer
  rw [hp, answerOf_payload]
  rcases hw with hstate | ⟨n, hstate⟩ <;> simp only [hstate]

/-- A NO-TAG for an issued record. -/
theorem exec_noTag {s : State} {node : Byte} {f : Frame} {i : RecNo} {rec : Record} (h : ReplyFor s node f 0x92 i rec)
    (hd : RecordsDistinct s) (hw : rec.state = .issued) (hp : f.payload = []) :
    exec (.noTag node f) s = .next (expire i rec s) := by
  have suits : Reply.suits { node, tag := f.tag, code := 0x92, payload := f.payload } rec.query = true := by
    rw [hp]
    cases rec.query <;> simp [Reply.suits, codeNoTag]
  refine h.taken.trans (congrArg _ ?_)
  rw [takeReply_noTag hd h.held (h.matched suits) rfl]
  unfold takeNoTag
  simp only [hw]

/-! ### Verified answers (O34 to O37) -/

/-- An ANSWER that is verified at once is handled by EVD. -/
theorem Verifies.judged {s : State} {node : Byte} {f : Frame} {i : RecNo} {rec : Record} {nonce : Nonce} {slot : SlotNo}
    {key : Key} {id : Identity} {e : ClassEntry} (h : Verifies s node f i rec nonce slot key id e) {odo response : Word32}
    (hp : f.payload = answerPayload nonce odo response) :
    ∃ t, exec (.answer node f) s = .next t ∧
      AnswerJudged s t i rec.position e (responseWord key nonce id odo) response odo := by
  refine ⟨_, ?_, verify_judged h.apart h.reply.held h.key h.phase h.identity h.cls⟩
  rw [exec_answer h.reply h.apart h.query h.waits hp, h.notBusy]
  exact congrArg _ (if_neg Bool.false_ne_true)

/-- Settles O34: the first pass of a judged answer. -/
theorem firstPassSetsTheReference : Obligations.FirstPassSetsTheReference := by
  unfold Obligations.FirstPassSetsTheReference
  intro s node f i rec nonce slot key id e odo h hp href
  obtain ⟨t, hexec, judged⟩ := h.judged hp
  exact ⟨fun hnone => ⟨t, hexec, judged.first rfl href hnone⟩,
    fun a x b l hsplit ha hx hl hlt => ⟨t, hexec, judged.firstBelow rfl href a x b l hsplit ha hx hl hlt⟩⟩

/-- Settles O35: a later pass of a judged answer. -/
theorem laterPassTestsTheOdometer : Obligations.LaterPassTestsTheOdometer := by
  unfold Obligations.LaterPassTestsTheOdometer
  intro s node f i rec nonce slot key id e odo ref n expected tol h hp href hn hexpected htol
  obtain ⟨t, hexec, judged⟩ := h.judged hp
  exact ⟨t, hexec, judged.laterBelow rfl ref href,
    fun w reason hle => judged.later rfl ref n expected tol w reason href hle hn hexpected htol⟩

/-- Settles O36: a judged answer that fails. -/
theorem wrongAnswerFails : Obligations.WrongAnswerFails := by
  unfold Obligations.WrongAnswerFails
  intro s node f i rec nonce slot key id e odo response h hp hwrong
  obtain ⟨t, hexec, judged⟩ := h.judged hp
  exact ⟨t, hexec, judged.fails hwrong⟩

/-- A bound raised to the order number of a place. -/
def raised (order : RecNo → Option Nat) (n : Nat) (i : RecNo) : Nat := (order i).elim n (max n)

theorem nextOrder_eq (order : RecNo → Option Nat) : nextOrder order = (List.finRange 4).foldl (raised order) 0 + 1 := by
  have step : (fun n i => raised order n i) = fun n i => (match order i with
      | none => n
      | some k => max n k) := by
    funext n i
    unfold raised
    cases order i <;> rfl
  exact (congrArg (fun f => (List.finRange 4).foldl f 0 + 1) step).symm

/-- The raised bound is above where it started and above every order number met. -/
theorem le_foldl_raised {order : RecNo → Option Nat} {i : RecNo} {n : Nat} (h : order i = some n) (l : List RecNo) (m : Nat) :
    m ≤ l.foldl (raised order) m ∧ (i ∈ l → n ≤ l.foldl (raised order) m) := by
  induction l generalizing m with
  | nil => exact ⟨le_rfl, fun hi => absurd hi List.not_mem_nil⟩
  | cons j l ih =>
    obtain ⟨above, member⟩ := ih (raised order m j)
    have grows : m ≤ raised order m j := by
      unfold raised
      cases order j with
      | none => exact le_rfl
      | some k => exact le_max_left m k
    refine ⟨grows.trans above, fun hi => ?_⟩
    rcases List.mem_cons.1 hi with rfl | hi
    · refine le_trans ?_ above
      rw [raised, h]
      exact le_max_right m n
    · exact member hi

/-- A fresh order number is above all that stand. -/
theorem lt_nextOrder {order : RecNo → Option Nat} {i : RecNo} {n : Nat} (h : order i = some n) : n < nextOrder order := by
  rw [nextOrder_eq]
  exact Nat.lt_succ_of_le ((le_foldl_raised h _ 0).2 (List.mem_finRange i))

/-- Settles O37: an answer waits while KST is busy; without a key the verification ends the round. -/
theorem answerWithoutAKeyIsNotJudged : Obligations.AnswerWithoutAKeyIsNotJudged := by
  unfold Obligations.AnswerWithoutAKeyIsNotJudged
  intro s node f i rec nonce slot odo response h hd hq hw hp
  refine ⟨fun hbusy => ⟨nextOrder (arrivalOrder s), fun j m hj => lt_nextOrder ((arrivalOrder_iff s j m).2 hj), ?_⟩,
    fun hfree hkey => ?_⟩
  · rw [exec_answer h hd hq hw hp, if_pos hbusy]
    rfl
  · obtain ⟨others, run, frame⟩ := verify_keyless (nonce := nonce) (odo := odo) (response := response) hd h.held hkey
    refine ⟨_, ?_, others, run, frame⟩
    rw [exec_answer h hd hq hw hp, hfree]
    exact congrArg _ (if_neg Bool.false_ne_true)

/-! ### Discarded replies and telegrams (O30) -/

theorem takeVerifierReply_fixed {node code : Byte} {f : Frame} {s : State}
    (h : takeReply { node, tag := f.tag, code, payload := f.payload } s = s) : takeVerifierReply node code f s = s := by
  unfold takeVerifierReply
  rw [h, ite_self]

/-- Telegrams of a kind that the port does not take (R131). -/
theorem takeTelegram_wrongKind (s : State) (kind : Byte) (body : Bytes) :
    (kind ≠ 0x01 → kind ≠ 0x03 → takeTelegram .u (kind :: body) s = s) ∧
      (kind ≠ 0x02 → kind ≠ 0x03 → takeTelegram .d (kind :: body) s = s) :=
  ⟨fun h1 h3 => (if_neg h1).trans (if_neg h3), fun h2 h3 => (if_neg h2).trans (if_neg h3)⟩

/-- What a reply that matches a record has in common with it. -/
theorem matched_fields {node tag code : Byte} {payload : Bytes} {rec : Record}
    (h : Reply.matchesRecord { node, tag, code, payload } rec = true) :
    tag.toNat = rec.tag ∧ node.toNat = rec.position.val + 1 ∧
      (code = codeIdent → rec.query = .ident ∧ payload.length = 11) ∧
      (code = codeAnswer → ∃ nonce slot, rec.query = .challenge nonce slot ∧ payload.length = 16 ∧
        (answerOf payload).echo = nonce) ∧
      (code = codeNoTag → payload = []) := by
  obtain ⟨htag, hnode, hsuits⟩ := (matchesRecord_iff _ _).1 h
  refine ⟨htag, hnode, ?_⟩
  cases hq : rec.query with
  | ident =>
    rw [hq] at hsuits
    refine ⟨?_, ?_, ?_⟩ <;> rintro rfl
    · simpa [Reply.suits, codeIdent, codeNoTag] using hsuits
    · simp [Reply.suits, codeAnswer, codeIdent, codeNoTag] at hsuits
    · simpa [Reply.suits, codeIdent, codeNoTag] using hsuits
  | challenge nonce slot =>
    rw [hq] at hsuits
    refine ⟨?_, ?_, ?_⟩ <;> rintro rfl
    · simp [Reply.suits, codeAnswer, codeIdent, codeNoTag] at hsuits
    · exact ⟨nonce, slot, rfl, by simpa [Reply.suits, codeAnswer, codeNoTag] using hsuits⟩
    · simpa [Reply.suits, codeAnswer, codeNoTag] using hsuits

/-- A nonce echo of 8 bytes that reads as a nonce is that nonce. -/
theorem take_eight_of_echo {payload : Bytes} {nonce : Nonce} (hlen : payload.length = 16)
    (h : (answerOf payload).echo = nonce) : payload.take 8 = be 8 nonce.toNat := by
  have short : (payload.take 8).length = 8 := by rw [List.length_take]; omega
  have value : beNat (payload.take 8) = nonce.toNat := by
    have bound := beNat_lt (payload.take 8)
    rw [short] at bound
    rw [← h]
    show _ = (BitVec.ofNat 64 (beNat (payload.take 8))).toNat
    rw [BitVec.toNat_ofNat, Nat.mod_eq_of_lt (by simpa using bound)]
  rw [← value]
  have := be_beNat (payload.take 8)
  rw [short] at this
  exact this.symm

/-- Settles O30: what a discarded reply matches does not wait for it, and a port takes its kinds alone. -/
theorem discardedTelegramsChangeNothing : Obligations.DiscardedTelegramsChangeNothing := by
  unfold Obligations.DiscardedTelegramsChangeNothing
  refine ⟨fun s node f => ⟨fun h => ?_, fun h => ?_, fun h => ?_, fun hd i r hrec htag => ⟨fun ⟨n, hwait⟩ => ?_, fun hstate => ?_⟩⟩,
    fun s kind body => ⟨fun h1 h3 => ?_, fun h2 h3 => ?_⟩⟩
  · refine whenLive_of_fixed (takeVerifierReply_fixed (takeReply_fixed fun i rec hrec hm => ?_))
    obtain ⟨htag, hnode, hident, -, -⟩ := matched_fields hm
    exact absurd (hident rfl).2 (h i rec hrec (hident rfl).1 htag hnode)
  · refine whenLive_of_fixed (takeVerifierReply_fixed (takeReply_fixed fun i rec hrec hm => ?_))
    obtain ⟨htag, hnode, -, hanswer, -⟩ := matched_fields hm
    obtain ⟨nonce, slot, hq, hlen, hecho⟩ := hanswer rfl
    rcases h i rec nonce slot hrec hq htag hnode with hother | hother
    · exact absurd hlen hother
    · exact absurd (take_eight_of_echo hlen hecho) hother
  · refine whenLive_of_fixed (takeVerifierReply_fixed (takeReply_fixed fun i rec hrec hm => ?_))
    obtain ⟨htag, hnode, -, -, hempty⟩ := matched_fields hm
    exact absurd (hempty rfl) (h i rec hrec htag hnode)
  · obtain ⟨r', odo, response, hrec', hstate⟩ := hwait
    obtain rfl := Option.some.inj (hrec.symm.trans hrec')
    have held {code : Byte} (hcode : code ≠ codeNoTag) :
        takeReply { node, tag := f.tag, code, payload := f.payload } s = s := by
      refine takeReply_fixed fun j rec hj hm => ⟨fun h => absurd h hcode, fun _ => ⟨odo, response, n, ?_⟩⟩
      have same := hd.apart j i rec r hj hrec (.inl ((matched_fields hm).1.symm.trans htag))
      subst same
      rw [Option.some.inj (hj.symm.trans hrec), hstate]
    exact ⟨whenLive_of_fixed (takeVerifierReply_fixed (held (by decide))),
      whenLive_of_fixed (takeVerifierReply_fixed (held (by decide)))⟩
  · refine whenLive_of_fixed (takeVerifierReply_fixed (takeReply_fixed fun j rec hj hm =>
      ⟨fun _ => ?_, fun h => absurd rfl h⟩))
    have same := hd.apart j i rec r hj hrec (.inl ((matched_fields hm).1.symm.trans htag))
    subst same
    rw [Option.some.inj (hj.symm.trans hrec)]
    exact hstate
  · exact whenLive_of_fixed ((takeTelegram_wrongKind s kind body).1 h1 h3)
  · exact whenLive_of_fixed ((takeTelegram_wrongKind s kind body).2 h2 h3)

end Sys2Proof.Machine
end

section
/-! PROOFS. Expiry (03, 3.8) and the identification of a part that no other position holds (01, 1.5) (O31, O32, O38). -/

namespace Sys2Proof.Machine

/-! ### Expiry (O38) -/

/-- The NO-TAG outcome (R20). -/
def unidentified (r : Runtime) : Runtime :=
  { r with identity := none, classIndex := none, verdict := .undecided, reason := some .noTag, phase := .held }

theorem noTagOutcome_acted (p : Pos) (s : State) :
    Acted p { run := unidentified s.run[p], notices := report s p s.run[p].verdict .noTag (unidentified s.run[p]) } s
      (noTagOutcome p s) := by
  refine ((modRun_acted p unidentified s).before (notifyChange_acted p s.run[p].verdict .noTag _)).congr ?_
  rw [modRun_self]
  rfl

/-- An identification has failed: the record is freed, and NO-TAG stands. -/
theorem noTag_freed (i : RecNo) (p : Pos) (s : State) :
    Acted p (answerAct s i p .noTag id (unidentified s.run[p])) s (noTagOutcome p (setRecord i none s)) :=
  (setRecord_acted p i none s).before (noTagOutcome_acted p (setRecord i none s))

/-- A challenge has failed: the record is freed, and NO-ANSWER is judged (R34). -/
theorem noAnswer_freed {p : Pos} {s : State} {e : ClassEntry} (hcls : classOf s s.run[p] = some e)
    (hp : s.run[p].phase = .challenging) (i : RecNo) :
    Acted p (answerAct s i p .noAnswer id (judged e .noAnswer
      { s.run[p] with score := clampedScore s.run[p].score e.wNoAnswer, decayCount := 0 })) s
      (noAnswer p (setRecord i none s)) := by
  have hcls' : classOf (setRecord i none s) (setRecord i none s).run[p] = some e := hcls
  unfold noAnswer
  simp only [hcls']
  exact answer_evaluated ((setRecord_acted p i none s).before (addEvidence_acted p e.wNoAnswer (setRecord i none s))) hcls
    (unheld_of_challenging hp) rfl

/-- An expiry, read by the attempts and the query. -/
theorem expire_expired {s : State} {i : RecNo} {rec : Record} (hd : RecordsDistinct s) (hrec : s.sch.records[i] = some rec) :
    Expired s (expire i rec s) i rec := by
  refine ⟨fun h => ⟨nextOrder (resendOrder s), fun j m hj => lt_nextOrder ((resendOrder_iff s j m).2 hj), if_pos h⟩,
    fun h hq => ?_, fun nonce slot e h hq hp hcls => ?_⟩
  · have failed : expire i rec s = noTagOutcome rec.position (setRecord i none s) := by
      unfold expire
      rw [hq]
      exact if_neg (Nat.not_lt.2 h)
    rw [failed]
    have acted := noTag_freed i rec.position s
    exact ⟨acted.run, answerAct_report acted, acted.others, answerAct_sch acted, acted.sightings, acted.frame⟩
  · have failed : expire i rec s = endRound rec.position (noAnswer rec.position (setRecord i none s)) := by
      unfold expire
      rw [hq]
      exact if_neg (Nat.not_lt.2 h)
    rw [failed]
    have acted := (noAnswer_freed hcls hp i).ended (withoutRecord_freed hd hrec)
    have verdict : (endRound rec.position (noAnswer rec.position (setRecord i none s))).run[rec.position].verdict =
        judgedVerdict e { s.run[rec.position] with
          score := clampedScore s.run[rec.position].score e.wNoAnswer, decayCount := 0 } := congrArg Runtime.verdict acted.run
    refine ⟨?_, ?_, verdict ▸ answerAct_report acted, acted.others, answerAct_sch acted,
      acted.sightings, acted.frame⟩
    · rw [verdict]
      exact judgedVerdict_step e { s.run[rec.position] with
        score := clampedScore s.run[rec.position].score e.wNoAnswer, decayCount := 0 }
    · rw [verdict]
      exact acted.run

/-- Settles O38: NO-TAG and the deadline are the expiry, where the record is issued and the deadline reached. -/
theorem noTagAndDeadlineExpire : Obligations.NoTagAndDeadlineExpire := by
  unfold Obligations.NoTagAndDeadlineExpire
  intro s i rec hlive hrec
  refine ⟨fun hd hstate => ⟨fun node f h hp => ⟨_, exec_noTag h hd hstate hp, expire_expired hd hrec⟩,
    fun hdue => ⟨_, ?_, expire_expired hd hrec⟩⟩, fun hundue => whenLive_of_fixed ?_⟩
  · have taken : takeDeadline i s = expire i rec s := by
      unfold takeDeadline
      simp only [hrec]
      exact if_pos ⟨hstate, hdue⟩
    exact (whenLive_of_live hlive _).trans (congrArg _ taken)
  · unfold takeDeadline
    simp only [hrec]
    exact if_neg fun ⟨hstate, hdue⟩ => hundue.elim (fun h => h hstate) (fun h => Nat.not_le.2 h hdue)

/-! ### The sighting step (R93, R94) -/

theorem hasKey_iff (cls : Code) (serial : Serial) (e : Sighting) :
    Sighting.hasKey cls serial e = true ↔ e.cls = cls ∧ e.serial = serial := by
  rw [Sighting.hasKey, Bool.and_eq_true, beq_iff_eq, beq_iff_eq]

theorem hasKey_other {cls : Code} {serial : Serial} {e : Sighting} (h : e.cls ≠ cls ∨ e.serial ≠ serial) :
    Sighting.hasKey cls serial e = false := by
  rw [← Bool.not_eq_true, hasKey_iff]
  exact fun ⟨hc, hs⟩ => h.elim (fun h => h hc) (fun h => h hs)

theorem find?_hasKey_none {cls : Code} {serial : Serial} {l : List Sighting}
    (h : ∀ x ∈ l, x.cls ≠ cls ∨ x.serial ≠ serial) : l.find? (Sighting.hasKey cls serial) = none :=
  List.find?_eq_none.2 fun x hx => by rw [hasKey_other (h x hx)]; exact Bool.false_ne_true

theorem find?_hasKey_split {cls : Code} {serial : Serial} {a : List Sighting} {e : Sighting} (b : List Sighting)
    (ha : ∀ x ∈ a, x.cls ≠ cls ∨ x.serial ≠ serial) (hc : e.cls = cls) (hs : e.serial = serial) :
    (a ++ e :: b).find? (Sighting.hasKey cls serial) = some e := by
  rw [List.find?_append, find?_hasKey_none ha, Option.none_or, List.find?_cons_of_pos ((hasKey_iff cls serial e).2 ⟨hc, hs⟩)]

/-- An entry found is touched and joined (R93). -/
theorem sight_found (p : Pos) {cls : Code} {serial : Serial} {a : List Sighting} {e : Sighting} (b : List Sighting)
    (ha : ∀ x ∈ a, x.cls ≠ cls ∨ x.serial ≠ serial) (hc : e.cls = cls) (hs : e.serial = serial) :
    sight p cls serial (a ++ e :: b) = { e with holders := addHolder p e.holders } :: (a ++ b) := by
  unfold sight
  rw [find?_hasKey_split b ha hc hs]
  exact touchFirst_some _ _ a e b (fun x hx => hasKey_other (ha x hx)) ((hasKey_iff cls serial e).2 ⟨hc, hs⟩)

/-- An entry made (R93, R94). -/
theorem sight_made (p : Pos) {cls : Code} {serial : Serial} {l : List Sighting}
    (h : ∀ x ∈ l, x.cls ≠ cls ∨ x.serial ≠ serial) :
    sight p cls serial l = { cls, serial, lastOdo := none, holders := [p] } :: (if l.length < 128 then l else evict l) := by
  unfold sight
  rw [find?_hasKey_none h]
  exact rfl

/-- The least recently touched entry without holders is evicted (R94). -/
theorem evict_last {a b : List Sighting} {e : Sighting} (he : e.holders = []) (hb : ∀ x ∈ b, x.holders ≠ []) :
    evict (a ++ e :: b) = a ++ b := by
  unfold evict
  rw [List.reverse_append, List.reverse_cons, List.append_assoc,
    List.eraseP_append_right _ (fun x hx => by simpa using hb x (List.mem_reverse.1 hx)), List.singleton_append,
    List.eraseP_cons_of_pos (by rw [he]; rfl), List.reverse_append, List.reverse_reverse, List.reverse_reverse]

/-- The sighting step of a sole holder. -/
theorem sight_sighted {p : Pos} {id : Identity} {l : List Sighting} : Sighted p id l (sight p id.cls id.serial l) := by
  refine ⟨fun a e b hl hc hs ha hsole => ?_, fun h hroom => ?_, fun a e b hl h hfull he hb => ?_⟩
  · rw [hl, sight_found p b ha hc hs]
    have joined : addHolder p e.holders = if e.holders = [] then [p] else e.holders := by
      unfold addHolder
      cases hh : e.holders with
      | nil => rfl
      | cons q holders =>
        have : q = p := hsole q (by rw [hh]; exact List.mem_cons_self)
        simp [this]
    rw [joined]
  · rw [sight_made p h, if_pos hroom]
  · rw [sight_made p h, if_neg (Nat.not_lt.2 hfull), hl, evict_last he hb]

theorem earlierHolders_alone {p : Pos} {id : Identity} {l : List Sighting}
    (h : ∀ e ∈ l, e.cls = id.cls → e.serial = id.serial → ∀ q ∈ e.holders, q = p) :
    earlierHolders p id.cls id.serial l = [] := by
  unfold earlierHolders
  cases hf : l.find? (Sighting.hasKey id.cls id.serial) with
  | none => rfl
  | some e =>
    obtain ⟨hc, hs⟩ := (hasKey_iff _ _ e).1 (List.find?_some hf)
    exact List.filter_eq_nil_iff.2 fun q hq => by simp [h e (List.mem_of_find?_eq_some hf) hc hs q hq]

/-! ### Revocation and class step (R18, R19) -/

theorem covers_iff (e : Revocation) (id : Identity) : e.covers id = true ↔ Revokes e id := by
  unfold Revocation.covers Revokes
  rcases e with ⟨cls, lot, scope⟩
  cases scope <;> simp [and_assoc]

theorem isRevoked_iff (l : List Revocation) (id : Identity) : isRevoked l id = true ↔ ∃ e ∈ l, Revokes e id := by
  simp only [isRevoked, List.any_eq_true, covers_iff]

theorem not_isRevoked {l : List Revocation} {id : Identity} (h : ∀ e ∈ l, ¬ Revokes e id) : ¬ isRevoked l id = true :=
  fun hr => ((isRevoked_iff l id).1 hr).elim fun e ⟨he, hcov⟩ => h e he hcov

theorem findClass_eq_some {s : State} {code : Code} {c : ClassIdx} (h : ClassAt s code c) :
    findClass s.mgt.classes code = some c := by
  obtain ⟨hcode, hc, hfirst⟩ := h
  unfold findClass
  rw [if_neg hcode]
  refine find?_first (finRange_ascends 32) (List.mem_finRange c) (beq_iff_eq.2 hc) fun j _ hj => ?_
  rw [beq_eq_false_iff_ne]
  exact hfirst j hj

theorem classAt_of_findClass {s : State} {code : Code} {c : ClassIdx} (h : findClass s.mgt.classes code = some c) :
    ClassAt s code c := by
  unfold findClass at h
  split at h
  · cases h
  · next hcode =>
    obtain ⟨hc, as, bs, hsplit, has⟩ := List.find?_eq_some_iff_append.1 h
    refine ⟨hcode, beq_iff_eq.1 hc, fun j hj he => ?_⟩
    have sorted := finRange_ascends 32
    rw [hsplit] at sorted
    have mem : j ∈ as ++ c :: bs := hsplit ▸ List.mem_finRange j
    rcases List.mem_append.1 mem with hmem | hmem
    · have := has j hmem
      rw [show s.mgt.classes[j].code = code from he, beq_self_eq_true] at this
      cases this
    · rcases List.mem_cons.1 hmem with rfl | hmem
      · exact absurd hj (Nat.lt_irrefl _)
      · have later := (List.pairwise_cons.1 (List.pairwise_append.1 sorted).2.1).1 j hmem
        exact absurd hj (Nat.not_lt.2 (Fin.le_of_lt later))

theorem findClass_eq_none {s : State} {code : Code} (h : ∀ c, ¬ ClassAt s code c) : findClass s.mgt.classes code = none :=
  Option.eq_none_iff_forall_ne_some.2 fun c hc => h c (classAt_of_findClass hc)

/-- A part that the revocation list matches (R18). -/
def identRevoked (c : Option ClassIdx) (r : Runtime) : Runtime :=
  { r with classIndex := c, verdict := .revoked, latch := true, reason := some .revoked, phase := .held }

theorem revokeAtIdentification_acted (p : Pos) (id : Identity) (s : State) :
    Acted p { run := identRevoked (findClass s.mgt.classes id.cls) s.run[p],
              notices := report s p s.run[p].verdict .revoked (identRevoked (findClass s.mgt.classes id.cls) s.run[p]) } s
      (revokeAtIdentification p id s) := by
  have classed := modRun_acted p (fun r => { r with classIndex := findClass s.mgt.classes id.cls }) s
  have forcedNow := classed.before (force_acted p .revoked .revoked _)
  rw [classed.run] at forcedNow
  refine (forcedNow.before (modRun_acted p (fun r => { r with phase := .held }) _)).congr ?_
  rw [forcedNow.run]
  exact congrArg (Act.mk _ _ _ _) (List.append_nil _).symm

/-- A part of an unknown class (R19). -/
def identUnknown (r : Runtime) : Runtime :=
  { r with classIndex := none, score := 0, verdict := .undecided, reason := some .classUnknown, phase := .held }

theorem classUnknown_acted (p : Pos) (s : State) :
    Acted p { run := identUnknown s.run[p], notices := report s p s.run[p].verdict .classUnknown (identUnknown s.run[p]) } s
      (classUnknown p s) := by
  refine ((modRun_acted p identUnknown s).before (notifyChange_acted p s.run[p].verdict .classUnknown _)).congr ?_
  rw [modRun_self]
  rfl

/-- A part of a known class without a duplicate finding (R19). -/
def identKnown (c : ClassIdx) (r : Runtime) : Runtime :=
  { r with classIndex := some c, score := 0, verdict := .undecided, reason := none }

theorem classKnown_acted (p : Pos) (c : ClassIdx) (s : State) :
    Acted p { run := calledRuntime (free s p) .new .new (identKnown c s.run[p]), queue := askQueue (free s p) p .new } s
      (classKnown p c s) := by
  refine ((modRun_acted p (identKnown c) s).before (callNew_acted p _)).congr ?_
  rw [modRun_self, free_congr rfl]
  rfl

/-! ### The identification of a part held nowhere else (O31, O32) -/

/-- The whole state after an act that offers nothing. -/
theorem Acted.quiet {p : Pos} {a : Act} {s t : State} (h : Acted p a s t) (hn : a.notices = []) :
    t = { s with
      run := t.run, sightings := t.sightings,
      sch := { s.sch with records := a.records s.sch.records, queue := a.queue s.sch.queue } } := by
  obtain ⟨-, -, queue, records, -, notices, frame⟩ := h
  rw [hn] at notices
  simp only [offered, List.foldl_nil, Prod.mk.injEq] at notices
  conv_lhs => rw [frame]
  rw [queue, records, notices.1, notices.2]

/-- The position of a freed record has no other, and where no entry is its own it may ask. -/
theorem unasked_of_freed {s t : State} {i : RecNo} {rec : Record} (hd : RecordsDistinct s) (hrec : s.sch.records[i] = some rec)
    (hrecs : t.sch.records = s.sch.records.set i.val none i.isLt) (hq : ∀ e ∈ t.sch.queue, e.position ≠ rec.position) :
    Unasked t rec.position := by
  refine ⟨hq, fun j r hj => ?_⟩
  rw [hrecs] at hj
  by_cases hij : i = j
  · subst hij
    simp at hj
  · have hne : i.val ≠ j.val := fun h => hij (Fin.ext h)
    have hold : s.sch.records[j] = some r := by
      have : (s.sch.records.set i.val none i.isLt)[j] = s.sch.records[j] := Vector.getElem_set_ne _ _ hne
      rw [← this]
      exact hj
    exact fun hp => hij (hd.apart i j rec r hrec hold (.inr hp.symm))

/-- The sighting step of a part that no other position holds, with the record freed. -/
theorem sightingStep_alone {s : State} (i : RecNo) {p : Pos} {id : Identity}
    (h : ∀ e ∈ s.sightings, e.cls = id.cls → e.serial = id.serial → ∀ q ∈ e.holders, q = p) :
    Acted p { run := { s.run[p] with identity := some id }, records := fun v => v.set i.val none i.isLt,
              sightings := sight p id.cls id.serial } s (sightingStep p id (setRecord i none s)) := by
  have alone : earlierHolders p id.cls id.serial (setRecord i none s).sightings = [] := earlierHolders_alone h
  have step : sightingStep p id (setRecord i none s) =
      { modRun p (fun r => { r with identity := some id }) (setRecord i none s) with
        sightings := sight p id.cls id.serial s.sightings } := by
    unfold sightingStep
    rw [alone]
    exact rfl
  have named := (setRecord_acted p i none s).before (modRun_acted p (fun r => { r with identity := some id }) (setRecord i none s))
  rw [step]
  exact ⟨named.run, named.others, rfl, rfl, rfl, rfl, rfl⟩

/-- The steps of an identification after the sighting step. -/
theorem identify_eq {s u : State} {p : Pos} {id : Identity} (hu : sightingStep p id s = u)
    (hrevocations : u.revocations = s.revocations) (hclasses : u.mgt.classes = s.mgt.classes) :
    ((∃ e ∈ s.revocations, Revokes e id) → identify p id s = revokeAtIdentification p id u) ∧
      ((∀ e ∈ s.revocations, ¬ Revokes e id) →
        ((∀ c, ¬ ClassAt s id.cls c) → identify p id s = classUnknown p u) ∧
        (∀ c, ClassAt s id.cls c → identify p id s =
          if earlierHolders p id.cls id.serial s.sightings = [] then classKnown p c u else classKnownDuplicate p c u)) := by
  unfold identify
  dsimp only
  rw [hu, hrevocations]
  refine ⟨fun hr => if_pos ((isRevoked_iff _ _).2 hr), fun hr => ⟨fun hc => ?_, fun c hc => ?_⟩⟩
  · refine (if_neg (not_isRevoked hr)).trans ?_
    unfold classStep
    rw [hclasses, findClass_eq_none hc]
  · refine (if_neg (not_isRevoked hr)).trans ?_
    unfold classStep
    rw [hclasses, findClass_eq_some hc]
    cases earlierHolders p id.cls id.serial s.sightings with
    | nil => exact (if_neg Bool.false_ne_true).trans (if_pos rfl).symm
    | cons q l => exact (if_pos rfl).trans (if_neg (List.cons_ne_nil q l)).symm

/-- A NEW request joins behind the IDENT and NEW entries (R56). -/
theorem askQueue_new (p : Pos) {q urgent due : List Request} (h : QueueGroups q urgent due) :
    askQueue true p .new q = urgent ++ [{ position := p, kind := .new }] ++ due :=
  enqueue_urgent { position := p, kind := .new } h nofun

/-- Settles O31: the sighting step and the class step as one act at the position. -/
theorem knownPartStartsARound : Obligations.KnownPartStartsARound := by
  unfold Obligations.KnownPartStartsARound
  intro s node f i rec id c urgent due h hc hr hgroups
  have seen := sightingStep_alone i h.alone
  have known := (((identify_eq (s := setRecord i none s) rfl (by rw [seen.frame]; rfl) (by rw [seen.frame]; rfl)).2 hr).2 c
    hc).trans (if_pos (earlierHolders_alone (l := (setRecord i none s).sightings) h.alone))
  have asks : free (sightingStep rec.position id (setRecord i none s)) rec.position = true :=
    (free_iff _ _).2 (unasked_of_freed h.apart h.reply.held seen.records fun e he => h.noEntry e (by rwa [seen.queue] at he))
  have acted := seen.before (classKnown_acted rec.position c (sightingStep rec.position id (setRecord i none s)))
  rw [asks, seen.run] at acted
  rw [← known] at acted
  refine ⟨_, exec_ident h.reply h.apart h.query h.waits h.payload, acted.run, acted.others, acted.sightings ▸ sight_sighted, ?_⟩
  rw [← askQueue_new rec.position hgroups]
  exact acted.quiet rfl

/-- Settles O32: the revocation step and the class step of an unknown class, each after the sighting step. -/
theorem heldWithoutAChallenge : Obligations.HeldWithoutAChallenge := by
  unfold Obligations.HeldWithoutAChallenge
  refine ⟨fun s node f i rec id h hr => ?_, fun s node f i rec id h hc hr => ?_⟩
  · have seen := sightingStep_alone i h.alone
    have revoked := (identify_eq (s := setRecord i none s) rfl (by rw [seen.frame]; rfl) (by rw [seen.frame]; rfl)).1 hr
    have acted := seen.before (revokeAtIdentification_acted rec.position id (sightingStep rec.position id (setRecord i none s)))
    rw [seen.run, report_congr seen.cycleCount, seen.classes] at acted
    rw [← revoked] at acted
    have cls := congrArg Runtime.classIndex acted.run
    refine ⟨_, exec_ident h.reply h.apart h.query h.waits h.payload,
      fun c hc => classAt_of_findClass (cls.symm.trans hc), fun hn c hc => ?_, ?_, acted.others, acted.sightings ▸ sight_sighted,
      .of_offered acted.notices, ?_, acted.frame⟩
    · have := (findClass_eq_some hc).symm.trans (cls.symm.trans hn)
      cases this
    · rw [cls]
      exact acted.run
    · rw [acted.frame]
      dsimp only
      rw [acted.queue, acted.records]
      rfl
  · have seen := sightingStep_alone i h.alone
    have unknown := ((identify_eq (s := setRecord i none s) rfl (by rw [seen.frame]; rfl) (by rw [seen.frame]; rfl)).2 hr).1 hc
    have acted := seen.before (classUnknown_acted rec.position (sightingStep rec.position id (setRecord i none s)))
    rw [seen.run, report_congr seen.cycleCount] at acted
    rw [← unknown] at acted
    refine ⟨_, exec_ident h.reply h.apart h.query h.waits h.payload, acted.run, acted.others, acted.sightings ▸ sight_sighted,
      .of_offered acted.notices, ?_, acted.frame⟩
    rw [acted.frame]
    dsimp only
    rw [acted.queue, acted.records]
    rfl

end Sys2Proof.Machine
end

section
/-! PROOFS. A duplicate finding (01, 1.5; 02, 2.3; 05, 5.2 and 5.3): the earlier holders are charged, then the joiner (O33). -/

namespace Sys2Proof.Machine

/-! ### Evaluations one after another -/

/-- What an evaluated position leaves beside its runtime half, told by the verdict it leaves: a DUE request where it is called,
a notice where the verdict changed (R47). -/
structure Act.CallsDue (reason : Reason) (s : State) (p : Pos) (a : Act) : Prop where
  queue : a.queue = fun q => if (calledDue s.run[p] a.run.verdict && free s p) = true
    then enqueue { position := p, kind := .due } q else q
  records : a.records = id
  sightings : a.sightings = id
  notices : a.notices = if (a.run.verdict != s.run[p].verdict) = true
    then [{ noticeOf s p a.run.verdict reason with score := a.run.score }] else []

/-- A position that is not evaluated. -/
theorem Act.CallsDue.idle (reason : Reason) (s : State) (p : Pos) : Act.CallsDue reason s p { run := s.run[p] } := by
  have uncalled : calledDue s.run[p] s.run[p].verdict = false := by simp [calledDue]
  refine ⟨?_, rfl, rfl, by simp⟩
  funext q
  rw [uncalled]
  rfl

/-- An evaluation after changes of score and counts. -/
theorem evaluateAct_calls (e : ClassEntry) (reason : Reason) {s : State} {p : Pos} {r : Runtime}
    (hphase : r.phase = s.run[p].phase) (hpending : r.pendingRequest = s.run[p].pendingRequest)
    (hverdict : r.verdict = s.run[p].verdict) (hident : r.identity = s.run[p].identity) :
    (evaluateAct e reason s p r).CallsDue reason s p := by
  have hv : (evaluateAct e reason s p r).run.verdict = judgedVerdict e r := judgedRuntime_verdict _ _ _ _
  have hs : (evaluateAct e reason s p r).run.score = r.score := judgedRuntime_score _ _ _ _
  have called (v : Verdict) : calledDue r v = calledDue s.run[p] v := by
    unfold calledDue
    rw [hphase, hpending, hverdict]
  refine ⟨?_, rfl, rfl, ?_⟩
  · funext q
    rw [hv, ← called]
    unfold evaluateAct askQueue
    cases calledDue r (judgedVerdict e r) <;> cases free s p <;> rfl
  · rw [hv, hs]
    unfold evaluateAct
    simp only [bne_iff_ne, ne_eq, ite_not, hverdict]
    split
    · rfl
    · unfold changeNotice noticeOf
      rw [hident]

/-- Requests and notices of evaluations at a list of positions, each told against the same state. -/
theorem ActedAll.calls {l : List Pos} {acts : Pos → Act} {s u t : State} {reason : Reason} (h : ActedAll l acts u t)
    (hc : ∀ p, (acts p).CallsDue reason s p) :
    t.sch.queue = u.sch.queue ++ (l.filter fun p => calledDue s.run[p] t.run[p].verdict && free s p).map
        (fun p => { position := p, kind := .due }) ∧
      t.sch.records = u.sch.records ∧ t.sightings = u.sightings ∧
      (t.mgt.notices, t.mgt.attention) = offered (changeNotices reason l s t) u := by
  refine ⟨?_, h.records_kept fun p => (hc p).records, h.sightings_kept fun p => (hc p).sightings, ?_⟩
  · rw [h.queue, ← foldl_due]
    exact List.foldl_ext _ _ _ fun q p hp => by rw [(hc p).queue, h.run p hp]
  · rw [h.notices, changeNotices, ← flatMap_ite]
    congr 1
    refine List.flatMap_congr fun p hp => ?_
    rw [(hc p).notices, ← h.run p hp]

/-- The acts of the positions of the list alone count. -/
theorem ActedAll.congr {l : List Pos} {acts acts' : Pos → Act} {s t : State} (h : ActedAll l acts s t)
    (he : ∀ p ∈ l, acts p = acts' p) : ActedAll l acts' s t where
  run p hp := he p hp ▸ h.run p hp
  others := h.others
  queue := h.queue.trans (List.foldl_ext _ _ _ fun _ p hp => by rw [he p hp])
  records := h.records.trans (List.foldl_ext _ _ _ fun _ p hp => by rw [he p hp])
  sightings := h.sightings.trans (List.foldl_ext _ _ _ fun _ p hp => by rw [he p hp])
  notices := h.notices.trans (by rw [List.flatMap_congr fun p hp => by rw [he p hp]])
  frame := h.frame

/-! ### The earlier holders (R35) -/

/-- The charge of an earlier holder: its own class's w_dup. -/
def chargeAct (s : State) (q : Pos) : Act :=
  match classOf s s.run[q] with
  | none => { run := s.run[q] }
  | some e => evaluateAct e .duplicate s q { s.run[q] with score := clampedScore s.run[q].score e.wDup, decayCount := 0 }

theorem chargeAct_calls (s : State) (q : Pos) : (chargeAct s q).CallsDue .duplicate s q := by
  unfold chargeAct
  split
  · exact .idle _ s q
  · exact evaluateAct_calls _ _ rfl rfl rfl rfl

/-- A charge reads the holder's half, the classes, whether it is free, and the cycle count. -/
theorem chargeAct_congr {s u : State} {q : Pos} (hrun : u.run[q] = s.run[q]) (hm : u.mgt.classes = s.mgt.classes)
    (hf : free u q = free s q) (hc : u.fwd.cycleCount = s.fwd.cycleCount) : chargeAct u q = chargeAct s q := by
  unfold chargeAct
  rw [hrun, classOf_congr hm]
  cases classOf s s.run[q] with
  | none => rfl
  | some e => exact evaluateAct_congr hf hc _ _ _

theorem duplicateHolder_acted {q : Pos} {s u : State} (h : SameAt q s u) (hfwd : u.fwd = s.fwd) :
    Acted q (chargeAct s q) u (duplicateHolder q u) := by
  refine Acted.congr ?_ (chargeAct_congr h.run h.classes h.free_eq (by rw [hfwd])).symm
  unfold duplicateHolder chargeAct
  cases hcls : classOf u u.run[q] with
  | none => exact .idle q u
  | some e =>
    have added := addEvidence_acted q e.wDup u
    have cls : classOf (addEvidence q e.wDup u) (addEvidence q e.wDup u).run[q] = some e := by
      rw [classOf_congr added.classes, added.run]
      exact hcls
    refine (added.before (evaluate_acted cls .duplicate)).congr ?_
    rw [added.run, evaluateAct_congr (free_congr rfl q) added.cycleCount]
    rfl

/-- The charges of the earlier holders, each once. -/
theorem holders_charged (s : State) {l : List Pos} (hl : l.Nodup) :
    ActedAll l (chargeAct s) s (l.foldl (fun t q => duplicateHolder q t) s) :=
  foldl_acted OrderlyBut.duplicateHolder_at (fun _ _ => duplicateHolder_acted) hl

/-! ### The sighting step of a duplicate finding -/

theorem addHolder_ascends (p : Pos) {holders : List Pos} (h : holders.Pairwise (· < ·)) :
    (addHolder p holders).Pairwise (· < ·) := by
  unfold addHolder
  split
  · exact h
  · next hp =>
    have apart : (p :: holders).Nodup := List.nodup_cons.2 ⟨by simpa using hp, (List.sortedLT_iff_pairwise.2 h).nodup⟩
    have sorted : (holders.orderedInsert (fun a b => a ≤ b) p).Pairwise (· ≤ ·) :=
      List.Pairwise.orderedInsert p holders (h.imp le_of_lt)
    exact (List.sortedLE_iff_pairwise.2 sorted).sortedLT_of_nodup
      ((List.perm_orderedInsert _ p holders).nodup_iff.2 apart) |>.pairwise

/-- What the sighting step of a duplicate finding leaves, with the record freed: the earlier holders charged, the joiner
identified. -/
structure StepCharged (s : State) (i : RecNo) (p : Pos) (id : Identity) (a : List Sighting) (x : Sighting) (b : List Sighting)
    (u : State) : Prop where
  joiner : u.run[p] = { s.run[p] with identity := some id }
  charged : ∀ q ∈ earlierOf x p, u.run[q] = (chargeAct s q).run
  others : ∀ q : Pos, q ≠ p → q ∉ earlierOf x p → u.run[q] = s.run[q]
  queue : u.sch.queue = s.sch.queue ++ ((earlierOf x p).filter fun q => calledDue s.run[q] u.run[q].verdict && free s q).map
    (fun q => { position := q, kind := .due })
  records : u.sch.records = s.sch.records.set i.val none i.isLt
  sightings : u.sightings = { x with holders := addHolder p x.holders } :: (a ++ b)
  notices : (u.mgt.notices, u.mgt.attention) = offered (changeNotices .duplicate (earlierOf x p) s u) s
  frame : OnlyPositionWork s u

section

variable {s : State} {node : Byte} {f : Frame} {i : RecNo} {rec : Record} {id : Identity} {a : List Sighting} {x : Sighting}
  {b : List Sighting}

theorem mem_earlierOf {p q : Pos} : q ∈ earlierOf x p ↔ q ∈ x.holders ∧ q ≠ p := by
  simp [earlierOf]

theorem FindsHolders.earlier (h : FindsHolders s node f i rec id a x b) :
    earlierHolders rec.position id.cls id.serial s.sightings = earlierOf x rec.position := by
  unfold earlierHolders
  rw [h.split, find?_hasKey_split b h.first h.cls h.serial]
  exact List.filter_congr fun q _ => by rw [Bool.eq_iff_iff, bne_iff_ne, decide_eq_true_iff]

theorem FindsHolders.earlier_ne (h : FindsHolders s node f i rec id a x b) :
    earlierHolders rec.position id.cls id.serial s.sightings ≠ [] := by
  obtain ⟨q, hq, hne⟩ := h.others
  rw [h.earlier]
  exact List.ne_nil_of_mem (mem_earlierOf.2 ⟨hq, hne⟩)

/-- Freeing the record of one position leaves another as free as it was. -/
theorem free_setRecord (hrec : s.sch.records[i] = some rec) {q : Pos} (hq : q ≠ rec.position) :
    free (setRecord i none s) q = free s q := by
  rw [Bool.eq_iff_iff, free_iff, free_iff]
  refine and_congr_right fun _ => ⟨fun hno j r hj hp => ?_, fun hno j r hj => ?_⟩ <;> by_cases hij : j = i
  · subst hij
    obtain rfl := Option.some.inj (hrec.symm.trans hj)
    exact hq hp.symm
  · exact hno j r ((setRecord_other hij none s).trans hj) hp
  · subst hij
    cases (setRecord_self j none s).symm.trans hj
  · exact hno j r ((setRecord_other hij none s).symm.trans hj)

theorem FindsHolders.step (h : FindsHolders s node f i rec id a x b) :
    StepCharged s i rec.position id a x b (sightingStep rec.position id (setRecord i none s)) := by
  have hsight : sight rec.position id.cls id.serial s.sightings =
      { x with holders := addHolder rec.position x.holders } :: (a ++ b) := by
    rw [h.split]
    exact sight_found rec.position b h.first h.cls h.serial
  have named := (setRecord_acted rec.position i none s).before
    (modRun_acted rec.position (fun r => { r with identity := some id }) (setRecord i none s))
  generalize hu : modRun rec.position (fun r => { r with identity := some id }) (setRecord i none s) = v at named
  have step : sightingStep rec.position id (setRecord i none s) = (earlierOf x rec.position).foldl (fun t q => duplicateHolder q t)
      { v with sightings := sight rec.position id.cls id.serial s.sightings } := by
    unfold sightingStep
    have kept : v.sightings = s.sightings := named.sightings
    rw [show (setRecord i none s).sightings = s.sightings from rfl, h.earlier, hu]
    simp only [kept]
  have once : (earlierOf x rec.position).Nodup := h.once.filter _
  have same (q : Pos) (hq : q ∈ earlierOf x rec.position) :
      chargeAct { v with sightings := sight rec.position id.cls id.serial s.sightings } q = chargeAct s q := by
    refine chargeAct_congr (named.others q (mem_earlierOf.1 hq).2) named.classes ?_ named.cycleCount
    rw [← free_setRecord h.reply.held (mem_earlierOf.1 hq).2, ← hu]
    exact free_congr rfl q
  have charged := (holders_charged { v with sightings := sight rec.position id.cls id.serial s.sightings } once).congr same
  rw [← step] at charged
  obtain ⟨queue, records, sightings, notices⟩ := charged.calls fun q => chargeAct_calls s q
  have frame := charged.frame
  refine ⟨(charged.others _ fun hp => (mem_earlierOf.1 hp).2 rfl).trans named.run, charged.run,
    fun q hq hne => (charged.others q hne).trans (named.others q hq), queue.trans (by rw [← hu]; rfl),
    records.trans named.records, sightings.trans hsight, ?_, ?_⟩
  · rw [notices]
    have quiet := named.notices
    exact offered_congr (congrArg Prod.fst quiet) (congrArg Prod.snd quiet) _
  · refine OnlyPositionWork.trans ?_ frame
    rw [← hu]
    exact rfl

/-- What a duplicate finding leaves whatever becomes of the joiner, whose act changes neither records nor the cache. -/
theorem StepCharged.joined {u t : State} {act : Act} {p : Pos} (h : StepCharged s i p id a x b u) (k : Acted p act u t)
    (hr : ∀ v, act.records v = v) (hs : ∀ l, act.sightings l = l) : ∃ due : List Request,
    u.sch.queue = s.sch.queue ++ due ∧ (∀ e ∈ due, e.position ≠ p ∧ e.kind = .due) ∧
    HoldersCharged p a x b s t ∧ DueCalls (earlierOf x p) s t due ∧ OnlyPositionWork s t ∧
    t.sch.records = s.sch.records.set i.val none i.isLt ∧ FindingNotices x p s t act.notices := by
  have kept (q : Pos) (hq : q ≠ p) : t.run[q] = u.run[q] := k.others q hq
  have apart {q : Pos} (hq : q ∈ earlierOf x p) : q ≠ p := (mem_earlierOf.1 hq).2
  have charged (q : Pos) (hq : q ∈ x.holders) (hne : q ≠ p) : t.run[q] = (chargeAct s q).run :=
    (kept q hne).trans (h.charged q (mem_earlierOf.2 ⟨hq, hne⟩))
  refine ⟨_, h.queue, fun e he => ?_, ⟨fun q hq hne e he => ?_, fun q hq hne hn => ?_, fun q hne hq => ?_,
    ⟨_, (k.sightings.trans (hs _)).trans h.sightings, fun q => ?_, addHolder_ascends p⟩⟩, fun test ht => ?_,
    h.frame.trans k.frame, (k.records.trans (hr _)).trans h.records, ?_⟩
  · obtain ⟨q, hq, rfl⟩ := List.mem_map.1 he
    exact ⟨apart (List.mem_filter.1 hq).1, rfl⟩
  · rw [charged q hq hne, chargeAct, he]
    exact judgedRuntime_evaluated e .duplicate (free_iff s q) _
  · rw [charged q hq hne, chargeAct, hn]
  · exact (kept q hne).trans (h.others q hne fun hq' => hq (mem_earlierOf.1 hq').1)
  · rw [CacheOk.mem_addHolder, or_comm]
  · congr 1
    refine List.filter_congr fun q hq => ?_
    rw [Bool.eq_iff_iff, ht q, Bool.and_eq_true, free_iff, kept q (apart hq)]
  · have same : changeNotices .duplicate (earlierOf x p) s t = changeNotices .duplicate (earlierOf x p) s u := by
      unfold changeNotices
      rw [List.filter_congr fun q hq => by rw [kept q (apart hq)]]
      exact List.map_congr_left fun q hq => by rw [kept q (apart (List.mem_filter.1 hq).1)]
    unfold FindingNotices
    rw [same, offered_append _ _ h.notices]
    exact k.notices

end

/-! ### The joiner (R18, R19) -/

/-- A part of a known class with a duplicate finding (R19). -/
def identDuplicate (c : ClassIdx) (e : ClassEntry) (r : Runtime) : Runtime :=
  { r with
    classIndex := some c, score := clampedScore 0 e.wDup, decayCount := 0,
    verdict := nextVerdict e (clampedScore 0 e.wDup) .undecided, reason := some .duplicate }

/-- The joiner's notice, unless it is UNDECIDED (R19). -/
def joinerReport (s : State) (p : Pos) (r : Runtime) : List Notice :=
  if r.verdict = .undecided then [] else report s p s.run[p].verdict .duplicate r

theorem joined_reported (p : Pos) (f : Runtime → Runtime) (s : State) :
    Acted p { run := f s.run[p], notices := joinerReport s p (f s.run[p]) } s
      (if (f s.run[p]).verdict = .undecided then modRun p f s
        else notifyChange p s.run[p].verdict .duplicate (modRun p f s)) := by
  unfold joinerReport
  split
  · exact modRun_acted p f s
  · refine ((modRun_acted p f s).before (notifyChange_acted p s.run[p].verdict .duplicate _)).congr ?_
    rw [modRun_self]
    rfl

theorem Acted.free_eq {p : Pos} {a : Act} {s t : State} (h : Acted p a s t) (hq : a.queue = id) (hr : a.records = id)
    (q : Pos) : free t q = free s q := by
  unfold free hasEntry hasRecord
  rw [h.queue, h.records, hq, hr]
  rfl

theorem classKnownDuplicate_acted (p : Pos) (c : ClassIdx) (s : State) :
    Acted p
      { run := calledRuntime (free s p) .new .new (identDuplicate c s.mgt.classes[c] s.run[p])
        queue := askQueue (free s p) p .new
        notices := joinerReport s p (identDuplicate c s.mgt.classes[c] s.run[p]) } s
      (classKnownDuplicate p c s) := by
  have reported := joined_reported p (identDuplicate c s.mgt.classes[c]) s
  refine Acted.congr (reported.before (callNew_acted p _)) ?_
  rw [reported.run, reported.free_eq rfl rfl]
  exact congrArg (Act.mk _ _ _ _) (List.append_nil _).symm

theorem calledRuntime_eq (isFree : Bool) (r : Runtime) : calledRuntime isFree .new .new r = { r with
    phase := .challenging, sweepAge := 0, pendingRequest := (calledRuntime isFree .new .new r).pendingRequest,
    roundKind := (calledRuntime isFree .new .new r).roundKind } := by
  cases isFree <;> rfl

/-- A report is the joiner's notice where its verdict is another than before. -/
theorem report_joiner {s u t : State} {p : Pos} {id : Identity} {r : Runtime} (hc : u.fwd.cycleCount = s.fwd.cycleCount)
    (hv : t.run[p].verdict = r.verdict) (hs : t.run[p].score = r.score) (hid : r.identity = some id) (reason : Reason) :
    report u p s.run[p].verdict reason r = if s.run[p].verdict = r.verdict then [] else [joinerNotice s t p id reason] := by
  rw [report_congr hc, report]
  simp only [eq_comm (a := r.verdict)]
  congr 2
  unfold changeNotice joinerNotice noticeOf
  rw [hv, hs, hid]
  rfl

/-- The runtime half of a joiner of a known class, read by its fields. -/
theorem called_identDuplicate {c : ClassIdx} {e : ClassEntry} {isFree : Bool} {r r' : Runtime}
    (h : r' = calledRuntime isFree .new .new (identDuplicate c e r)) :
    VerdictStep e false r'.score .undecided r'.verdict ∧ r' = { r with
      classIndex := some c, score := clampedScore 0 e.wDup, decayCount := 0, verdict := r'.verdict, reason := some .duplicate,
      phase := .challenging, sweepAge := 0, pendingRequest := r'.pendingRequest, roundKind := r'.roundKind } := by
  rw [calledRuntime_eq] at h
  subst h
  exact ⟨judgedVerdict_step e { r with score := clampedScore 0 e.wDup, verdict := .undecided, latch := false }, rfl⟩

/-- The notice of a joiner of a known class. -/
theorem joinerReport_eq {s u t : State} {p : Pos} {id : Identity} {r : Runtime} (hc : u.fwd.cycleCount = s.fwd.cycleCount)
    (hbefore : u.run[p].verdict = s.run[p].verdict) (hv : t.run[p].verdict = r.verdict) (hs : t.run[p].score = r.score)
    (hid : r.identity = some id) :
    joinerReport u p r = if t.run[p].verdict = .undecided ∨ t.run[p].verdict = s.run[p].verdict then []
      else [joinerNotice s t p id .duplicate] := by
  unfold joinerReport
  rw [hbefore, report_joiner hc hv hs hid, hv]
  by_cases hu : r.verdict = .undecided
  · rw [if_pos hu, if_pos (.inl hu)]
  · rw [if_neg hu]
    simp only [hu, false_or, eq_comm]

/-- Settles O33: the earlier holders' charges, then one act at the joiner, by revocation list and class. -/
theorem duplicateChargesBothSides : Obligations.DuplicateChargesBothSides := by
  unfold Obligations.DuplicateChargesBothSides
  intro s node f i rec id a x b p h hp
  subst hp
  have exec := exec_ident h.reply h.apart h.query h.waits h.payload
  have step := h.step
  have cases := identify_eq (s := setRecord i none s) (p := rec.position) (id := id) rfl (by rw [step.frame]; rfl)
    (by rw [step.frame]; rfl)
  have classes : (sightingStep rec.position id (setRecord i none s)).mgt.classes = s.mgt.classes := by rw [step.frame]
  have cycle : (sightingStep rec.position id (setRecord i none s)).fwd.cycleCount = s.fwd.cycleCount := by rw [step.frame]
  have before : (sightingStep rec.position id (setRecord i none s)).run[rec.position].verdict = s.run[rec.position].verdict := by
    rw [step.joiner]
  generalize sightingStep rec.position id (setRecord i none s) = u at step cases classes cycle before
  obtain ⟨isRevoked, notRevoked⟩ := cases
  by_cases hr : ∃ e ∈ s.revocations, Revokes e id
  · have acted := revokeAtIdentification_acted rec.position id u
    rw [← isRevoked hr] at acted
    obtain ⟨due, queue, -, charged, calls, only, records, notices⟩ := step.joined acted (fun _ => rfl) (fun _ => rfl)
    have run := acted.run
    rw [step.joiner, classes] at run
    have cls := congrArg Runtime.classIndex run
    refine ⟨_, due, exec, charged, calls, only, records, fun _ => ⟨fun c hc => classAt_of_findClass (cls.symm.trans hc),
      fun hn c hc => ?_, ?_, acted.queue.trans queue, ?_⟩, fun hno => ?_, fun c urgent rest hno => ?_⟩
    · cases (findClass_eq_some hc).symm.trans (cls.symm.trans hn)
    · rw [cls]
      exact run
    · unfold FindingNotices at notices ⊢
      rw [notices, step.joiner]
      congr 2
      exact report_joiner cycle (congrArg Runtime.verdict run) (congrArg Runtime.score run) rfl .revoked
    · exact absurd hr (by push Not; exact hno)
    · exact absurd hr (by push Not; exact hno)
  · have hno : ∀ e ∈ s.revocations, ¬ Revokes e id := fun e he hcov => hr ⟨e, he, hcov⟩
    by_cases hc : ∀ c, ¬ ClassAt s id.cls c
    · have acted := classUnknown_acted rec.position u
      rw [← (notRevoked hno).1 hc] at acted
      obtain ⟨due, queue, -, charged, calls, only, records, notices⟩ := step.joined acted (fun _ => rfl) (fun _ => rfl)
      have run := acted.run
      rw [step.joiner] at run
      refine ⟨_, due, exec, charged, calls, only, records, fun h => absurd h hr, fun _ _ => ⟨run, acted.queue.trans queue, ?_⟩,
        fun c _ _ _ hat => absurd hat (hc c)⟩
      unfold FindingNotices at notices ⊢
      rw [notices, step.joiner]
      congr 2
      exact report_joiner cycle (congrArg Runtime.verdict run) (congrArg Runtime.score run) rfl .classUnknown
    · push Not at hc
      obtain ⟨c, hc⟩ := hc
      have acted := classKnownDuplicate_acted rec.position c u
      rw [← ((notRevoked hno).2 c hc).trans (if_neg h.earlier_ne)] at acted
      obtain ⟨due, queue, dues, charged, calls, only, records, notices⟩ := step.joined acted (fun _ => rfl) (fun _ => rfl)
      have run := acted.run
      rw [step.joiner, classes] at run
      refine ⟨_, due, exec, charged, calls, only, records, fun h => absurd h hr, fun _ hn => absurd hc (hn c),
        fun c' urgent rest _ hat hgroups => ?_⟩
      obtain rfl : c' = c := Option.some.inj ((findClass_eq_some hat).symm.trans (findClass_eq_some hc))
      obtain ⟨step', half⟩ := called_identDuplicate run
      refine ⟨step', half, fun hempty => ?_, ?_⟩
      · have asks : free u rec.position = true := by
          refine (free_iff _ _).2 (unasked_of_freed h.apart h.reply.held step.records fun e he => ?_)
          rw [queue] at he
          exact (List.mem_append.1 he).elim (hempty e) (fun he => (dues e he).1)
        rw [asks] at run
        refine ⟨congrArg Runtime.pendingRequest run, congrArg Runtime.roundKind run, ?_⟩
        have groups : QueueGroups u.sch.queue urgent (rest ++ due) := by
          obtain ⟨split, urgents, rests⟩ := hgroups
          refine ⟨by rw [queue, split, List.append_assoc], urgents, fun e he => ?_⟩
          exact (List.mem_append.1 he).elim (rests e) (fun he => (dues e he).2)
        have queued := acted.queue
        dsimp only at queued
        rw [asks, askQueue_new rec.position groups] at queued
        rw [queued, List.append_assoc _ rest due]
      · unfold FindingNotices at notices ⊢
        rw [notices, step.joiner, classes]
        congr 2
        refine joinerReport_eq cycle before ?_ ?_ rfl
        · rw [run, calledRuntime_eq]
        · rw [run, calledRuntime_eq]

end Sys2Proof.Machine
end

section
/-! PROOFS. Requests that change one thing: hold and pending edit set (R167), attention (R173, R174), requests that name a position
(R127, R170), and the Setup write (R169). -/

namespace Sys2Proof.Machine

/-! ### Answers and refusals -/

theorem refuses_of_eq {s t : State} {tag : Byte} {cause : Cause} (h : t = refuse tag cause s) : Refuses s t tag cause.code :=
  h ▸ refuse_refuses s tag cause

/-- Changes that leave the ports alone, made after the answer instead of before it. -/
theorem Answers.carried {s v u t : State} {tag code : Byte} {payload : Bytes} (h : Answers s v tag code payload)
    (hu : u.fwd = s.fwd) (ht : t = { u with fwd := v.fwd }) : Answers u t tag code payload := by
  obtain ⟨last, frame⟩ := h
  subst ht
  have fwd : v.fwd = { s.fwd with uSending := v.fwd.uSending, uReady := v.fwd.uReady } := congrArg State.fwd frame
  refine ⟨?_, ?_⟩
  · show portU v = portU u ++ _
    rw [last]
    unfold portU
    rw [hu]
  · rw [hu]
    exact congrArg (fun f => { u with fwd := f }) fwd

/-! ### Hold and pending edit set (O45) -/

/-- An answered request is an event of R165 while the line is STILL. -/
theorem applyIfStill_answered {s u : State} {tag code : Byte} {payload : Bytes} (h : Answers s u tag code payload) :
    portU (applyIfStill u) = portU s ++ [{ bytes := serviceTelegram 0x00 0x00 tag code payload, opensGap := false }] ∧
      (s.fwd.lineState = .cycling ∨ s.mgt.edits = [] ∨ s.mgt.hold = true → applyIfStill u = u) ∧
      (s.fwd.lineState = .still → applyIfStill u = applyEvent u ∧ (s.mgt.hold = false → (applyEvent u).mgt.edits = [])) := by
  have line : u.fwd.lineState = s.fwd.lineState := by rw [h.frame]
  have mgt : u.mgt = s.mgt := by rw [h.frame]
  have fwd : (applyIfStill u).fwd = u.fwd := by
    unfold applyIfStill
    split
    · exact (applyEvent_boundary u).fwd
    · rfl
  refine ⟨?_, fun hidle => ?_, fun hstill => ⟨if_pos (line.trans hstill), fun hhold => ?_⟩⟩
  · exact Eq.trans (by unfold portU; rw [fwd]) h.last
  · unfold applyIfStill
    split
    · next hstill =>
      rw [line] at hstill
      rcases hidle with hcycling | hidle
      · rw [hcycling] at hstill
        cases hstill
      · exact applyEvent_plain (by rw [mgt]; exact hidle)
    · rfl
  · by_cases he : s.mgt.edits = []
    · rw [applyEvent_plain (by rw [mgt]; exact .inl he), mgt, he]
    · exact applyEvent_edits (by rw [mgt]; exact he) (by rw [mgt]; exact hhold)

/-- Settles O45: each request's answer, and a release as an event of R165. -/
theorem holdReleaseAndDiscard : Obligations.HoldReleaseAndDiscard := by
  unfold Obligations.HoldReleaseAndDiscard
  intro s f
  refine ⟨fun h => ⟨_, onRequest_of_arrives h _, replyOk_answers _ _ _⟩,
    fun h => ⟨_, onRequest_of_arrives h _, replyOk_answers _ _ _⟩, fun h => ⟨_, onRequest_of_arrives h _, ?_⟩⟩
  have answered := replyOk_answers { s with mgt := { s.mgt with hold := false } } f.tag []
  have released : (applyIfStill (replyOk f.tag [] { s with mgt := { s.mgt with hold := false } })).mgt.hold = false := by
    unfold applyIfStill
    split
    · rw [(applyEvent_boundary _).hold, answered.frame]
    · rw [answered.frame]
  obtain ⟨port, idle, still⟩ := applyIfStill_answered answered
  refine ⟨released, port, fun hidle => ?_, fun hstill => ⟨_, answered, (still hstill).1, ?_⟩⟩
  · unfold takeReleaseHold
    rw [idle (hidle.imp id .inl)]
    exact answered
  · unfold takeReleaseHold
    rw [(still hstill).1]
    exact (still hstill).2 rfl

/-! ### Attention (O48) -/

theorem attentionOf_encode (a : Attention) : attentionOf (encodeAttention a) = a ∧ (encodeAttention a).toNat < 32 := by
  obtain ⟨notice, overrun, keyDone, keyMissing, framing⟩ := a
  revert notice overrun keyDone keyMissing framing
  decide

/-- A payload of another length than 1 is not a mask. -/
theorem takeAttentionMask_unfit {payload : Bytes} (h : payload.length ≠ 1) (tag : Byte) (s : State) :
    takeAttentionMask tag payload s = refuse tag .range s := by
  match payload, h with
  | [], _ => rfl
  | [_], h => exact absurd rfl h
  | _ :: _ :: _, _ => rfl

/-- Settles O48: the flags and the mask are written as they stand; the mask is replaced by its five bits. -/
theorem attentionIsReadAndMasked : Obligations.AttentionIsReadAndMasked := by
  unfold Obligations.AttentionIsReadAndMasked
  intro s f
  refine ⟨fun h => ⟨_, encodeAttention s.mgt.attention, encodeAttention s.mgt.mask, onRequest_of_arrives h _,
    replyOk_answers _ _ _, (attentionOf_encode _).1, (attentionOf_encode _).1, (attentionOf_encode _).2,
    (attentionOf_encode _).2⟩, fun b h => ⟨fun hb => ⟨_, onRequest_of_arrives h.toArrives _, ?_⟩,
    fun hb => ⟨_, onRequest_of_arrives h.toArrives _, ?_⟩⟩, fun h hlen => ⟨_, onRequest_of_arrives h _, ?_⟩⟩
  · rw [h.payload, show takeAttentionMask f.tag [b] s = replyOk f.tag [] { s with mgt := { s.mgt with mask := attentionOf b } } from
      if_neg (Nat.not_le.2 hb)]
    exact replyOk_answers _ _ _
  · rw [h.payload]
    exact refuses_of_eq (if_pos hb)
  · exact refuses_of_eq (takeAttentionMask_unfit hlen f.tag s)

/-! ### Requests that name a position (O49) -/

theorem namedPosition_of_length {payload : Bytes} (h : payload.length ≠ 1) : namedPosition payload = none := by
  rw [namedPosition, oneByte_of_length h]

theorem namedPosition_out {b : Byte} (h : b = 0 ∨ 48 < b.toNat) : namedPosition [b] = none := by
  have out : ¬ (1 ≤ b.toNat ∧ b.toNat ≤ 48) := by
    rcases h with rfl | h
    · decide
    · omega
  exact dif_neg out

theorem namedPosition_eq {b : Byte} {p : Pos} (h : b.toNat = p.val + 1) : namedPosition [b] = some p := by
  have range : 1 ≤ b.toNat ∧ b.toNat ≤ 48 := by omega
  have place : (⟨b.toNat - 1, by omega⟩ : Pos) = p := Fin.ext (by show b.toNat - 1 = p.val; omega)
  exact (dif_pos range).trans (congrArg some place)

section

variable {payload : Bytes} {tag : Byte} {s : State}

theorem takeRelease_unnamed (h : namedPosition payload = none) : takeRelease tag payload s = refuse tag .range s := by
  rw [takeRelease, h]

theorem takeRechallenge_unnamed (h : namedPosition payload = none) : takeRechallenge tag payload s = refuse tag .range s := by
  rw [takeRechallenge, h]

variable {p : Pos} (h : namedPosition payload = some p)

include h

theorem takeRelease_named : takeRelease tag payload s = if s.run[p].phase = .disabled ∨ s.run[p].phase = .vacant then
    refuse tag .state s else replyOk tag [] (modRun p (fun r => { r with released := true }) s) := by
  rw [takeRelease, h]

theorem takeRechallenge_state
    (hs : s.run[p].phase ≠ .held ∨ s.run[p].latch = true ∨ (s.run[p].identity ≠ none ∧ s.run[p].classIndex = none)) :
    takeRechallenge tag payload s = refuse tag .state s := by
  simp only [takeRechallenge, h]
  rcases hs with hs | hs | ⟨hid, hcls⟩
  · rw [if_pos (.inl hs)]
  · rw [if_pos (.inr hs)]
  · rw [if_neg hid, if_pos hcls, ite_self]

variable (hheld : s.run[p].phase = .held) (hlatch : s.run[p].latch = false)

include hheld hlatch

theorem takeRechallenge_unidentified (hid : s.run[p].identity = none) : takeRechallenge tag payload s =
    replyOk tag [] (ask p .ident none (modRun p (fun x => { x with phase := .identifying, sweepAge := 0 }) s)) := by
  simp only [takeRechallenge, h]
  rw [if_neg (by rw [hheld, hlatch]; simp), if_pos hid]

theorem takeRechallenge_called (hid : s.run[p].identity ≠ none) (hcls : s.run[p].classIndex ≠ none) :
    takeRechallenge tag payload s = replyOk tag [] (callDue p .manual s) := by
  simp only [takeRechallenge, h]
  rw [if_neg (by rw [hheld, hlatch]; simp), if_neg hid, if_neg hcls]

end

/-- A request for a position, as the obligations tell the state it leaves before the answer. -/
theorem ask_told {p : Pos} {f : Runtime → Runtime} {kind : RequestKind} {round : Option RoundKind} {s : State}
    {queue : List Request} (hfree : Unasked s p) (hq : enqueue { position := p, kind } s.sch.queue = queue) {r : Runtime}
    (hr : { f s.run[p] with pendingRequest := some kind, roundKind := round.getD (f s.run[p]).roundKind } = r) :
    let u := ask p kind round (modRun p f s)
    u = { s with run := u.run, sch := { s.sch with queue := queue } } ∧ u.run[p] = r ∧ OthersKeep p s u := by
  dsimp only
  rw [ask_called p f kind round s hfree, hq]
  refine ⟨rfl, ?_, fun q hqp => ?_⟩
  · dsimp only
    rw [modRun_self]
    exact hr
  · dsimp only
    rw [modRun_other hqp]

/-- Settles O49: the phase decides. -/
theorem positionRequestsFollowThePhase : Obligations.PositionRequestsFollowThePhase := by
  unfold Obligations.PositionRequestsFollowThePhase
  intro s f b p
  refine ⟨fun hlen => ⟨fun h => ⟨_, onRequest_of_arrives h _, ?_⟩, fun h => ⟨_, onRequest_of_arrives h _, ?_⟩⟩,
    fun hout => ⟨fun h => ⟨_, onRequest_of_arrives h.toArrives _, ?_⟩, fun h => ⟨_, onRequest_of_arrives h.toArrives _, ?_⟩⟩,
    fun hb h => ⟨fun hphase => ⟨_, onRequest_of_arrives h.toArrives _, ?_⟩,
      fun hd hv => ⟨_, modRun p (fun r => { r with released := true }) s, onRequest_of_arrives h.toArrives _, ?_, rfl,
        modRun_self p _ s, fun q hq => modRun_other hq _ s⟩⟩,
    fun hb h => ⟨fun hphase => ⟨_, onRequest_of_arrives h.toArrives _, ?_⟩, fun hheld hlatch hid hcls hfree => ?_,
      fun urgent due hheld hlatch hid hfree hgroups => ?_⟩⟩
  · exact refuses_of_eq (takeRelease_unnamed (namedPosition_of_length hlen))
  · exact refuses_of_eq (takeRechallenge_unnamed (namedPosition_of_length hlen))
  · rw [h.payload]
    exact refuses_of_eq (takeRelease_unnamed (namedPosition_out hout))
  · rw [h.payload]
    exact refuses_of_eq (takeRechallenge_unnamed (namedPosition_out hout))
  · rw [h.payload]
    exact refuses_of_eq ((takeRelease_named (namedPosition_eq hb)).trans (if_pos hphase))
  · rw [h.payload, takeRelease_named (namedPosition_eq hb), if_neg (not_or.2 ⟨hd, hv⟩)]
    exact replyOk_answers _ _ _
  · rw [h.payload]
    exact refuses_of_eq (takeRechallenge_state (namedPosition_eq hb) hphase)
  · obtain ⟨frame, run, others⟩ := ask_told (f := fun r => { r with phase := .challenging, sweepAge := 0 })
      (round := some .manual) hfree (show enqueue { position := p, kind := .due } s.sch.queue = _ from rfl) rfl
    refine ⟨_, callDue p .manual s, onRequest_of_arrives h.toArrives _, ?_, frame, run, others⟩
    rw [h.payload, takeRechallenge_called (namedPosition_eq hb) hheld hlatch hid hcls]
    exact replyOk_answers _ _ _
  · obtain ⟨frame, run, others⟩ := ask_told (f := fun r => { r with phase := .identifying, sweepAge := 0 }) (round := none) hfree
      (enqueue_urgent { position := p, kind := .ident } hgroups nofun) rfl
    refine ⟨_, _, onRequest_of_arrives h.toArrives _, ?_, frame, run, others⟩
    rw [h.payload, takeRechallenge_unidentified (namedPosition_eq hb) hheld hlatch hid]
    exact replyOk_answers _ _ _

/-! ### The header of a write (R160) -/

/-- The payload of a WRITE-ENTRIES: table code, first index, count, entries. -/
def writePayload (code : Byte) (first : Nat) (count : Byte) (rest : Bytes) : Bytes := [code] ++ be 2 first ++ [count] ++ rest

section

variable (code : Byte) {first : Nat} (count : Byte) (rest : Bytes)

theorem writePayload_code : fieldNat 0 1 (writePayload code first count rest) = code.toNat := by
  rw [fieldNat_one]
  rfl

theorem writePayload_first (h : first < 65536) : fieldNat 1 2 (writePayload code first count rest) = first := by
  rw [writePayload, List.append_assoc, List.append_assoc, fieldNat_skip _ _ _ _ (by simp)]
  exact fieldNat_be 2 first _ h

theorem writePayload_count : fieldNat 3 1 (writePayload code first count rest) = count.toNat := by
  rw [fieldNat_one]
  rfl

theorem writePayload_length : (writePayload code first count rest).length = 4 + rest.length := by
  simp [writePayload]
  omega

theorem entryAt_writePayload (size k : Nat) :
    entryAt size k (writePayload code first count rest) = (rest.drop (k * size)).take size := by
  have header : ([code] ++ be 2 first ++ [count]).length = 4 := by simp
  rw [entryAt, field, writePayload, ← header, List.drop_append, List.drop_of_length_le (by omega), List.nil_append,
    Nat.add_sub_cancel_left]

/-- The length and index test (R160). -/
theorem writeFits_iff (t : Table) (h : first < 65536) : writeFits t (writePayload code first count rest) = true ↔
    1 ≤ count.toNat ∧ rest.length = count.toNat * t.entrySize ∧ first + count.toNat ≤ t.entries := by
  simp only [writeFits, writePayload_count, writePayload_first code count rest h, writePayload_length, Bool.and_eq_true,
    decide_eq_true_iff, beq_iff_eq]
  omega

end

end Sys2Proof.Machine
end

section
/-! PROOFS. The Setup write (R169), and the writes and requests that are refused (R159 to R161, R154) (O43, O44). -/

namespace Sys2Proof.Machine

/-! ### The Setup write (O44) -/

theorem recountPositions_getElem (n : Nat) (s : State) (q : Pos) : (recountPositions n s).run[q] =
    { s.run[q] with phase := if n < q.val + 1 then .disabled
        else if s.configs[q].enabled = true ∧ s.run[q].phase = .disabled then .vacant else s.run[q].phase } := by
  simp only [recountPositions, Fin.getElem_fin, Vector.getElem_ofFn]
  split
  · rfl
  · split <;> rfl

/-- The passage with the Setup lock set (R196). -/
theorem passage_locked {s : State} (h : s.mgt.setupLock = true) :
    passage s = { s with device := if s.device = .starting ∧ s.startCount = 8 then .running else s.device } := by
  unfold passage
  by_cases hd : s.device = .starting ∧ s.startCount = 8
  · rw [if_pos hd]
    exact if_pos ⟨hd.1, hd.2, h⟩
  · rw [if_neg hd]
    exact if_neg fun hp => hd ⟨hp.1, hp.2.1⟩

/-- An accepted Setup write leaves the ports alone. -/
theorem writeSetup_eq (p : Setup) (s : State) : writeSetup p s = { s with
    run := (recountPositions p.positionCount s).run, mgt := { s.mgt with setup := p, setupLock := true },
    device := if s.device = .starting ∧ s.startCount = 8 then .running else s.device } := by
  have counted : recountPositions p.positionCount { s with mgt := { s.mgt with setup := p, setupLock := true } } =
      { s with run := (recountPositions p.positionCount s).run, mgt := { s.mgt with setup := p, setupLock := true } } := rfl
  unfold writeSetup
  rw [counted]
  exact passage_locked rfl

theorem takeWrite_setup {tag : Byte} {first : Nat} {count : Byte} {rest : Bytes} {s : State} :
    takeWrite tag (writePayload 6 first count rest) s = takeSetupWrite tag (writePayload 6 first count rest) s := by
  rw [takeWrite, writePayload_code]
  exact rfl

/-- The header of a Setup write (R169). -/
theorem setup_fits (p : Setup) : writeFits .setup (writePayload 6 0 1 (encodeSetup p)) = true :=
  (writeFits_iff 6 1 (encodeSetup p) .setup (by decide)).2 ⟨by decide, encodeSetup_length p, by decide⟩

/-- Settles O44: the lock decides; the write and the answer are made at different parts of the state. -/
theorem setupIsWrittenOnce : Obligations.SetupIsWrittenOnce := by
  unfold Obligations.SetupIsWrittenOnce
  intro s f p h
  have payload : f.payload = writePayload 6 0 1 (encodeSetup p) := h.payload
  refine ⟨fun hlock => ⟨_, onRequest_of_arrives h.toArrives _, ?_⟩, fun hlock hfits => ⟨_, writeSetup p s,
    onRequest_of_arrives h.toArrives _, ?_, ?_, fun q => ?_⟩⟩
  · rw [payload, takeWrite_setup]
    unfold takeSetupWrite
    rw [setup_fits, if_neg (by decide)]
    exact refuses_of_eq (if_pos hlock)
  · have entry : entryAt 16 0 (writePayload 6 0 1 (encodeSetup p)) = encodeSetup p := by
      rw [entryAt_writePayload, Nat.zero_mul, List.drop_zero, ← encodeSetup_length p, List.take_length]
    rw [payload, takeWrite_setup]
    unfold takeSetupWrite
    rw [setup_fits, if_neg (by decide), hlock, if_neg Bool.false_ne_true, entry, decodeSetup_encode p hfits]
    have answered := replyOk_answers s f.tag (encodeSetup s.mgt.setup)
    refine answered.carried (by rw [writeSetup_eq]) ?_
    have frame := answered.frame
    generalize replyOk f.tag (encodeSetup s.mgt.setup) s = v at frame
    rw [writeSetup_eq p s]
    rw [frame]
    exact writeSetup_eq p _
  · rw [writeSetup_eq]
  · rw [writeSetup_eq]
    exact recountPositions_getElem _ s q

end Sys2Proof.Machine
end

section
/-! PROOFS. Writes and requests that are refused (R154, R159 to R161, R169) (O43). -/

namespace Sys2Proof.Machine

/-! ### Fields read byte by byte -/

theorem fieldNat_byte (b : Bytes) (off : Nat) : fieldNat off 1 b = byteAt b off := fieldNat_one off b

theorem field_pair {b : Bytes} {off : Nat} (h : off + 2 ≤ b.length) : field off 2 b = [b.getD off 0, b.getD (off + 1) 0] := by
  have h0 : off < b.length := by omega
  have h1 : off + 1 < b.length := by omega
  rw [field, List.drop_eq_getElem_cons h0, List.drop_eq_getElem_cons h1, List.take_succ_cons, List.take_succ_cons,
    List.take_zero, List.getD_eq_getElem _ _ h0, List.getD_eq_getElem _ _ h1]

theorem fieldNat_word {b : Bytes} {off : Nat} (h : off + 2 ≤ b.length) : fieldNat off 2 b = wordAt b off := by
  rw [fieldNat, field_pair h, beNat_pair]
  rfl

theorem wordAt_lt (b : Bytes) (off : Nat) : wordAt b off < 65536 := by
  have := (b.getD off 0).isLt
  have := (b.getD (off + 1) 0).isLt
  unfold wordAt byteAt
  omega

theorem signedNat_word {b : Bytes} {off : Nat} (h : off + 2 ≤ b.length) : signedNat (field off 2 b) = signedAt b off := by
  have bound := wordAt_lt b off
  have value : beNat (field off 2 b) = wordAt b off := fieldNat_word h
  rw [signedNat, value, BitVec.toInt_eq_toNat_bmod, BitVec.toNat_ofNat, signedAt]
  simp only [Int.bmod]
  omega

theorem eq_zero_of_beNat_eq_zero {l : Bytes} (h : beNat l = 0) : ∀ x ∈ l, x = 0 := by
  induction l with
  | nil => exact fun x hx => absurd hx List.not_mem_nil
  | cons a l ih =>
    rw [beNat_cons] at h
    have ha : a.toNat = 0 := by
      by_contra hne
      have := Nat.mul_pos (Nat.pos_of_ne_zero hne) (Nat.pow_pos (n := l.length) (show 0 < 256 by decide))
      omega
    have hl : beNat l = 0 := by omega
    intro x hx
    rcases List.mem_cons.1 hx with rfl | hx
    · exact BitVec.eq_of_toNat_eq ha
    · exact ih hl x hx

/-- The bytes of a field that reads 0 are 0. -/
theorem byteAt_eq_zero {b : Bytes} {off n : Nat} (h : fieldNat off n b = 0) {k : Nat} (hk : off ≤ k) (hn : k < off + n) :
    byteAt b k = 0 := by
  unfold byteAt
  by_cases hlen : k < b.length
  · have mem : b[k] ∈ field off n b := by
      have hin : k - off < (field off n b).length := by
        rw [field, List.length_take, List.length_drop]
        omega
      have := List.getElem_mem hin
      simp only [field, List.getElem_take, List.getElem_drop] at this
      rwa [show b[off + (k - off)] = b[k] from by congr 1; omega] at this
    rw [List.getD_eq_getElem?_getD, List.getElem?_eq_getElem hlen, Option.getD_some, eq_zero_of_beNat_eq_zero h _ mem]
    rfl
  · rw [List.getD_eq_getElem?_getD, List.getElem?_eq_none (Nat.le_of_not_lt hlen)]
    rfl

theorem gateActionOf_range {code : Nat} {a : GateAction} (h : gateActionOf code = some a) : code ≤ 2 := by
  unfold gateActionOf at h
  by_contra hc
  rw [if_neg (by omega), if_neg (by omega), if_neg (by omega)] at h
  cases h

/-! ### Entries that fail a test -/

theorem mask_bits (b : Byte) : b.toNat < 64 → b.getLsbD 7 = false ∧ b.getLsbD 6 = false := by
  revert b
  decide

theorem clamp_bits (b : Byte) : b.toNat = 0 ∨ (128 ≤ b.toNat ∧ b.toNat ≤ 134) →
    (∀ k ∈ [3, 4, 5, 6], b.getLsbD k = false) ∧ (b.getLsbD 7 = false → b = 0) ∧
      (b.getLsbD 7 = true → b.toNat = 128 + b.toNat % 8) := by
  revert b
  decide

/-- A POSITION-CONFIG entry that is read passes every test of R161. -/
theorem decodeConfig_unfit {size : Nat} {b : Bytes} (hlen : b.length = 8) (h : UnfitConfig size b) :
    decodeConfig size b = none := by
  refine if_neg ?_
  rw [fieldNat_byte, fieldNat_byte, fieldNat_byte, fieldNat_byte, fieldNat_byte, fieldNat_byte, fieldNat_word (by omega)]
  rintro ⟨henabled, hform, hsettle, hmask, hlow, hhigh, hend, hclamp⟩
  have mask := mask_bits (b.getD 4 0) (by
    unfold wordAt byteAt at hmask
    omega)
  have clamp := clamp_bits (b.getD 7 0) (hclamp.imp id fun h => ⟨h.1, h.2.1⟩)
  rcases h with h | h | h | h | h | h | h | h | ⟨k, hk, h⟩ | ⟨h7, h⟩ | ⟨h7, h⟩
  · omega
  · omega
  · exact hsettle h
  · rw [mask.1] at h
    cases h
  · rw [mask.2] at h
    cases h
  · omega
  · omega
  · omega
  · rw [clamp.1 k hk] at h
    cases h
  · exact h (clamp.2.1 h7)
  · have value : byteAt b 7 = 128 + byteAt b 7 % 8 := clamp.2.2 h7
    omega

/-- A SETUP entry that is read passes every test of R169. -/
theorem decodeSetup_unfit {b : Bytes} (hlen : b.length = 16) (h : UnfitSetup b) : decodeSetup b = none := by
  unfold decodeSetup
  cases hpolicy : gateActionOf (fieldNat 7 1 b) with
  | none => rfl
  | some policy =>
    have policyRange := gateActionOf_range hpolicy
    rw [fieldNat_byte] at policyRange
    refine if_neg ?_
    rintro ⟨hrange, hreserved⟩
    have r13 := byteAt_eq_zero hreserved (k := 13) (by decide) (by decide)
    have r14 := byteAt_eq_zero hreserved (k := 14) (by decide) (by decide)
    have r15 := byteAt_eq_zero hreserved (k := 15) (by decide) (by decide)
    simp only [Setup.inRange, Bool.and_eq_true, decide_eq_true_eq, fieldNat_byte] at hrange
    rw [fieldNat_word (by omega), fieldNat_word (by omega), fieldNat_word (by omega)] at hrange
    unfold UnfitSetup at h
    omega

/-- A CLASS entry that is read passes every test of R159. -/
theorem decodeClass_unfit {b : Bytes} (hlen : b.length = 48) (h : UnfitClass b) : decodeClass b = none := by
  unfold decodeClass
  rw [fieldNat_word (by omega)]
  rcases h with ⟨hcode, k, hk, -, hne⟩ | ⟨hcode, h⟩
  · rw [if_pos hcode]
    refine if_neg fun hall => hne ?_
    have hk' : k < b.length := by omega
    have zero := List.all_eq_true.1 hall b[k] (List.getElem_mem hk')
    unfold byteAt
    rw [List.getD_eq_getElem?_getD, List.getElem?_eq_getElem hk', Option.getD_some, beq_iff_eq.1 zero]
    rfl
  · rw [if_neg hcode]
    cases hcf : gateActionOf (fieldNat 7 1 b) with
    | none => rfl
    | some cf =>
      cases hpending : gateActionOf (fieldNat 8 1 b) with
      | none => rfl
      | some pending =>
        cases hworn : gateActionOf (fieldNat 9 1 b) with
        | none => rfl
        | some worn =>
          have policies := And.intro (gateActionOf_range hcf) (And.intro (gateActionOf_range hpending) (gateActionOf_range hworn))
          simp only [fieldNat_byte] at policies
          refine if_neg ?_
          rintro ⟨hslot, hlatch, hreserved, hrange⟩
          rw [fieldNat_byte] at hslot hlatch
          simp only [ClassEntry.inRange, classFields, Bool.and_eq_true, decide_eq_true_eq, fieldNat_byte] at hrange
          rw [fieldNat_word (by omega), fieldNat_word (by omega), signedNat_word (by omega), signedNat_word (by omega),
            signedNat_word (by omega), signedNat_word (by omega), signedNat_word (by omega), signedNat_word (by omega),
            signedNat_word (by omega), signedNat_word (by omega)] at hrange
          have r44 := byteAt_eq_zero hreserved (k := 44) (by decide) (by decide)
          have r45 := byteAt_eq_zero hreserved (k := 45) (by decide) (by decide)
          have r46 := byteAt_eq_zero hreserved (k := 46) (by decide) (by decide)
          have r47 := byteAt_eq_zero hreserved (k := 47) (by decide) (by decide)
          simp only [List.mem_cons, List.not_mem_nil, or_false, exists_eq_or_imp, exists_eq_left] at h
          omega

/-! ### Refused writes -/

theorem allSome_of_none_mem {α : Type} {l : List (Option α)} (h : none ∈ l) : allSome l = none := by
  induction l with
  | nil => cases h
  | cons a l ih =>
    cases a with
    | none => rfl
    | some a =>
      rw [allSome, ih ((List.mem_cons.1 h).resolve_left nofun)]

theorem testSize_eq (f : Framing) : f.testSize = SlotSizeOf f := by
  cases f <;> rfl

/-- The entries of a write that has the length its count gives. -/
theorem entry_length {rest : Bytes} {size count j : Nat} (h : rest.length = count * size) (hj : j < count) :
    ((rest.drop (j * size)).take size).length = size := by
  have := Nat.mul_le_mul_right size (show j + 1 ≤ count by omega)
  rw [Nat.succ_mul] at this
  rw [List.length_take, List.length_drop]
  omega

section

variable {tag : Byte} {first : Nat} {count : Byte} {rest : Bytes} {s : State}

theorem takeConfigWrite_unfit {j : Nat} (hj : j < count.toNat)
    (h : UnfitConfig (SlotSizeOf s.fwd.framing) ((rest.drop (8 * j)).take 8)) (hfirst : first < 65536) :
    takeConfigWrite tag (writePayload 1 first count rest) s = refuse tag .range s := by
  unfold takeConfigWrite
  cases hfits : writeFits .positionConfig (writePayload 1 first count rest) with
  | false => rfl
  | true =>
    obtain ⟨-, hlen, -⟩ := (writeFits_iff 1 count rest .positionConfig hfirst).1 hfits
    have unread : decodeConfig s.fwd.framing.testSize (entryAt 8 j (writePayload 1 first count rest)) = none := by
      rw [entryAt_writePayload, testSize_eq]
      rw [Nat.mul_comm] at h
      exact decodeConfig_unfit (entry_length hlen hj) h
    have items : configItems s (fieldNat 1 2 (writePayload 1 first count rest)) (fieldNat 3 1 (writePayload 1 first count rest))
        (writePayload 1 first count rest) = none := by
      rw [writePayload_count]
      exact allSome_of_none_mem (List.mem_map.2 ⟨j, List.mem_range.2 hj, by rw [unread]⟩)
    simp only [items]
    exact if_neg nofun

theorem takeClassWrite_unfit {j : Nat} (hj : j < count.toNat) (h : UnfitClass ((rest.drop (48 * j)).take 48))
    (hfirst : first < 65536) : takeClassWrite tag (writePayload 3 first count rest) s = refuse tag .range s := by
  unfold takeClassWrite
  cases hfits : writeFits .cls (writePayload 3 first count rest) with
  | false => rfl
  | true =>
    obtain ⟨-, hlen, -⟩ := (writeFits_iff 3 count rest .cls hfirst).1 hfits
    have unread : decodeClass (entryAt 48 j (writePayload 3 first count rest)) = none := by
      rw [entryAt_writePayload]
      rw [Nat.mul_comm] at h
      exact decodeClass_unfit (entry_length hlen hj) h
    have items : classItems (fieldNat 1 2 (writePayload 3 first count rest)) (fieldNat 3 1 (writePayload 3 first count rest))
        (writePayload 3 first count rest) = none := by
      rw [writePayload_count]
      exact allSome_of_none_mem (List.mem_map.2 ⟨j, List.mem_range.2 hj, by rw [unread]⟩)
    simp only [items]
    exact if_neg nofun

theorem takeSetupWrite_unfit (hlock : s.mgt.setupLock = false) (h : UnfitSetup rest) (hfirst : first < 65536) :
    takeSetupWrite tag (writePayload 6 first count rest) s = refuse tag .range s := by
  unfold takeSetupWrite
  cases hfits : writeFits .setup (writePayload 6 first count rest) with
  | false => rfl
  | true =>
    obtain ⟨hcount, hlen, hend⟩ := (writeFits_iff 6 count rest .setup hfirst).1 hfits
    have hlen16 : rest.length = 16 := by
      have : count.toNat = 1 := le_antisymm (le_trans (Nat.le_add_left _ _) hend) hcount
      rw [hlen, this]
      rfl
    have unread : decodeSetup (entryAt 16 0 (writePayload 6 first count rest)) = none := by
      rw [entryAt_writePayload, Nat.zero_mul, List.drop_zero, ← hlen16, List.take_length]
      exact decodeSetup_unfit hlen16 h
    simp only [unread, hlock]
    exact (if_neg nofun).trans (if_neg Bool.false_ne_true)

theorem takeWrite_config : takeWrite tag (writePayload 1 first count rest) s = takeConfigWrite tag (writePayload 1 first count rest) s := by
  rw [takeWrite, writePayload_code]
  exact rfl

theorem takeWrite_cls : takeWrite tag (writePayload 3 first count rest) s = takeClassWrite tag (writePayload 3 first count rest) s := by
  rw [takeWrite, writePayload_code]
  exact rfl

/-- The code of a table (08, Tables). -/
def Table.number (t : Table) : Nat :=
  [Table.positionConfig, .positionState, .cls, .sighting, .revocation, .setup, .keyStatus, .device].idxOf t + 1

theorem code_of_tableOf {n : Nat} {t : Table} (h : tableOf n = some t) : n = t.number := by
  unfold tableOf at h
  split at h <;> cases h <;> rfl

/-- A table code that names no writable table (R160). -/
theorem takeWrite_unwritable {payload : Bytes} (h : fieldNat 0 1 payload ≠ 1 ∧ fieldNat 0 1 payload ≠ 3 ∧ fieldNat 0 1 payload ≠ 6) :
    takeWrite tag payload s = refuse tag .range s := by
  unfold takeWrite
  cases ht : tableOf (fieldNat 0 1 payload) with
  | none => rfl
  | some t =>
    have code := code_of_tableOf ht
    cases t with
    | positionConfig => exact absurd code h.1
    | cls => exact absurd code h.2.1
    | setup => exact absurd code h.2.2
    | positionState | sighting | revocation | keyStatus | device => rfl

/-- A header that fails the length or index test (R160). -/
theorem takeWrite_header {k size entries : Nat} {code : Byte} (hk : (k, size, entries) ∈ [(1, 8, 48), (3, 48, 32), (6, 16, 1)])
    (hcode : code.toNat = k) (h : count = 0 ∨ rest.length ≠ count.toNat * size ∨ entries < first + count.toNat)
    (hfirst : first < 65536) : takeWrite tag (writePayload code first count rest) s = refuse tag .range s := by
  have unfit (t : Table) (hsize : t.entrySize = size) (hentries : t.entries = entries) :
      writeFits t (writePayload code first count rest) = false := by
    rw [← Bool.not_eq_true, writeFits_iff code count rest t hfirst, hsize, hentries]
    rintro ⟨hcount, hlen, hend⟩
    rcases h with rfl | h | h
    · exact absurd hcount (by decide)
    · exact h hlen
    · omega
  simp only [List.mem_cons, Prod.mk.injEq, List.not_mem_nil, or_false] at hk
  rcases hk with ⟨hk, hs, he⟩ | ⟨hk, hs, he⟩ | ⟨hk, hs, he⟩
  · obtain rfl : code = 1 := BitVec.eq_of_toNat_eq (hcode.trans hk)
    rw [takeWrite_config]
    exact if_pos (unfit .positionConfig hs.symm he.symm)
  · obtain rfl : code = 3 := BitVec.eq_of_toNat_eq (hcode.trans hk)
    rw [takeWrite_cls]
    exact if_pos (unfit .cls hs.symm he.symm)
  · obtain rfl : code = 6 := BitVec.eq_of_toNat_eq (hcode.trans hk)
    rw [takeWrite_setup]
    exact if_pos (unfit .setup hs.symm he.symm)

/-- A write shorter than its header (R154). -/
theorem takeWrite_short {payload : Bytes} (h : payload.length < 4) : takeWrite tag payload s = refuse tag .range s := by
  have unfit (t : Table) : writeFits t payload = false := by
    rw [← Bool.not_eq_true]
    intro hfits
    simp only [writeFits, Bool.and_eq_true, beq_iff_eq] at hfits
    omega
  unfold takeWrite
  split
  · exact if_pos (unfit .positionConfig)
  · exact if_pos (unfit .cls)
  · exact if_pos (unfit .setup)
  all_goals rfl

end

/-- A code that names no management request (R154). -/
theorem takeRequest_unknown {code tag : Byte} {payload : Bytes} {s : State}
    (h : code ∉ [0x40, 0x41, 0x42, 0x43, 0x44, 0x48, 0x49, 0x4A, 0x50, 0x51, 0x58, 0x59, 0x5A, 0x60, 0x61, 0x62, 0x70]) :
    takeRequest code tag payload s = refuse tag .unknown s := by
  simp only [List.mem_cons, List.not_mem_nil, or_false, not_or] at h
  obtain ⟨h1, h2, h3, h4, h5, h6, h7, h8, h9, h10, h11, h12, h13, h14, h15, h16, h17⟩ := h
  unfold takeRequest
  exact (if_neg h1).trans ((if_neg h2).trans ((if_neg h3).trans ((if_neg h4).trans ((if_neg h5).trans ((if_neg h6).trans
    ((if_neg h7).trans ((if_neg h8).trans ((if_neg h9).trans ((if_neg h10).trans ((if_neg h11).trans ((if_neg h12).trans
      ((if_neg h13).trans ((if_neg h14).trans ((if_neg h15).trans ((if_neg h16).trans (if_neg h17))))))))))))))))

theorem exec_unknownRequest {s : State} {f : Frame} {code : Byte} (h : Arrives s f code) (hcode : code < 0x80) :
    exec (.unknownRequest code f) s = .next (takeRequest code f.tag f.payload s) :=
  (onRequest_of_arrives h fun t => if isReplyCode code = true then t else takeRequest code f.tag f.payload t).trans
    (congrArg _ (if_neg (by rw [(isReplyCode_eq_false_iff code).2 hcode]; exact Bool.false_ne_true)))

/-- Settles O43: each test of a write, and the codes of the requests. -/
theorem unfitRequestsAreRefused : Obligations.UnfitRequestsAreRefused := by
  unfold Obligations.UnfitRequestsAreRefused
  refine ⟨fun s f code first count rest h hp hunfit => ⟨_, onRequest_of_arrives h _, ?_⟩,
    fun s f h hlen => ⟨_, onRequest_of_arrives h _, refuses_of_eq (takeWrite_short hlen)⟩,
    fun s f code h hcode hno => ⟨_, exec_unknownRequest h hcode, refuses_of_eq (takeRequest_unknown hno)⟩⟩
  · have hfirst : first.toNat < 65536 := first.isLt
    rw [show f.payload = writePayload code first.toNat count rest from hp]
    refine refuses_of_eq (cause := .range) ?_
    rcases hunfit with ⟨h1, h3, h6⟩ | ⟨k, size, entries, hk, hcode, hbad⟩ | ⟨rfl, j, hj, hbad⟩ | ⟨rfl, j, hj, hbad⟩ |
      ⟨rfl, hlock, hbad⟩
    · refine takeWrite_unwritable ?_
      rw [writePayload_code]
      exact ⟨fun h => h1 (BitVec.eq_of_toNat_eq h), fun h => h3 (BitVec.eq_of_toNat_eq h),
        fun h => h6 (BitVec.eq_of_toNat_eq h)⟩
    · exact takeWrite_header hk hcode hbad hfirst
    · exact takeWrite_config.trans (takeConfigWrite_unfit hj hbad hfirst)
    · exact takeWrite_cls.trans (takeClassWrite_unfit hj hbad hfirst)
    · exact takeWrite_setup.trans (takeSetupWrite_unfit hlock hbad hfirst)

end Sys2Proof.Machine
end

section
/-! PROOFS. A write that is staged (R160, R163 to R165): the set it leaves, and the POSITION-CONFIG write (O41). -/

namespace Sys2Proof.Machine

/-! ### The pending edit set after a write (R164) -/

/-- The item of a write that names an entry, and the item of the set where none does. -/
def replacedBy (items : List EditItem) (x : EditItem) : EditItem := (items.find? (fun y => y.sameEntry x)).getD x

theorem sameEntry_false {a b : EditItem} (h : a.entry ≠ b.entry) : a.sameEntry b = false := by
  rw [← Bool.not_eq_true, EditItem.sameEntry_iff]
  exact h

theorem replacedBy_mem {items : List EditItem} (h : EditsOnce items) {x y : EditItem} (hy : y ∈ items) (hxy : y.entry = x.entry) :
    replacedBy items x = y := by
  unfold replacedBy
  cases hf : items.find? (fun z => z.sameEntry x) with
  | none => exact absurd ((EditItem.sameEntry_iff y x).2 hxy) (List.find?_eq_none.1 hf y hy)
  | some z =>
    have hzx : z.sameEntry x = true := List.find?_some (p := fun y : EditItem => y.sameEntry x) hf
    have hz := (EditItem.sameEntry_iff z x).1 hzx
    exact List.inj_on_of_nodup_map h (List.mem_of_find?_eq_some hf) hy (hz.trans hxy.symm)

theorem replacedBy_none {items : List EditItem} {x : EditItem} (h : ∀ y ∈ items, y.entry ≠ x.entry) : replacedBy items x = x := by
  unfold replacedBy
  rw [List.find?_eq_none.2 fun y hy => by rw [sameEntry_false (h y hy)]; exact Bool.false_ne_true]
  rfl

/-- Items that name an entry which the set has already join no tail. -/
theorem joining_congr {edits edits' items : List EditItem} (h : ∀ y ∈ items, (∀ x ∈ edits, x.entry ≠ y.entry) ↔
    ∀ x ∈ edits', x.entry ≠ y.entry) : joining edits items = joining edits' items := by
  unfold joining
  exact List.filter_congr fun y hy => by simp only [h y hy]

/-- The items of a write go each to its place, or to the tail. -/
theorem staged_eq {items : List EditItem} (h : EditsOnce items) (edits : List EditItem) :
    items.foldl stageItem edits = edits.map (replacedBy items) ++ joining edits items := by
  induction items generalizing edits with
  | nil =>
    rw [show replacedBy [] = id from rfl, List.map_id]
    exact (List.append_nil _).symm
  | cons y items ih =>
    obtain ⟨hy, hitems⟩ := List.nodup_cons.1 h
    have apart {z : EditItem} (hz : z ∈ items) : z.entry ≠ y.entry := fun e => hy (List.mem_map.2 ⟨z, hz, e⟩)
    have placed (x : EditItem) : replacedBy items (if y.sameEntry x then y else x) = replacedBy (y :: items) x := by
      by_cases hyx : y.entry = x.entry
      · rw [if_pos ((EditItem.sameEntry_iff y x).2 hyx), replacedBy_none fun z hz => apart hz,
          replacedBy_mem h List.mem_cons_self hyx]
      · rw [if_neg (by rw [sameEntry_false hyx]; exact Bool.false_ne_true)]
        unfold replacedBy
        rw [List.find?_cons_of_neg (by rw [sameEntry_false hyx]; exact Bool.false_ne_true)]
    rw [List.foldl_cons, ih hitems]
    by_cases hin : edits.any y.sameEntry = true
    · obtain ⟨x, hx, hxy⟩ := List.any_eq_true.1 hin
      have hxy := (EditItem.sameEntry_iff y x).1 hxy
      have same : (edits.map fun z => if y.sameEntry z then y else z).map EditItem.entry = edits.map EditItem.entry := by
        rw [List.map_map]
        refine List.map_congr_left fun z _ => ?_
        show (if y.sameEntry z then y else z).entry = z.entry
        split
        · next hs => exact (EditItem.sameEntry_iff y z).1 hs
        · rfl
      have kept : joining (edits.map fun z => if y.sameEntry z then y else z) items = joining edits (y :: items) := by
        have head : joining edits (y :: items) = joining edits items :=
          List.filter_cons_of_neg (by simpa using ⟨x, hx, hxy.symm⟩)
        rw [head]
        refine joining_congr fun z _ => ?_
        rw [← List.forall_mem_map (f := EditItem.entry) (P := fun e => e ≠ z.entry),
          ← List.forall_mem_map (f := EditItem.entry) (P := fun e => e ≠ z.entry), same]
      unfold stageItem
      rw [if_pos hin, kept, List.map_map]
      congr 1
      exact List.map_congr_left fun z _ => placed z
    · have fresh : ∀ x ∈ edits, y.entry ≠ x.entry := fun x hx e =>
        hin (List.any_eq_true.2 ⟨x, hx, (EditItem.sameEntry_iff y x).2 e⟩)
      have kept : joining (edits ++ [y]) items = joining edits items := joining_congr fun z hz => by
        rw [List.forall_mem_append]
        exact and_iff_left fun x hx => by rw [List.mem_singleton.1 hx]; exact (apart hz).symm
      have head : joining edits (y :: items) = y :: joining edits items :=
        List.filter_cons_of_pos (by simpa using fun x hx => (fresh x hx).symm)
      unfold stageItem
      rw [if_neg hin, kept, head, List.map_append, List.map_singleton, replacedBy_none fun z hz => apart hz, List.append_assoc,
        List.singleton_append]
      congr 1
      refine List.map_congr_left fun x hx => ?_
      rw [← placed x, if_neg (by rw [sameEntry_false (fresh x hx)]; exact Bool.false_ne_true)]

theorem staged_setStaged {items : List EditItem} (h : EditsOnce items) (edits : List EditItem) :
    SetStaged items edits (items.foldl stageItem edits) := by
  rw [staged_eq h]
  have place {k : Nat} {x : EditItem} (hx : edits[k]? = some x) :
      (edits.map (replacedBy items) ++ joining edits items)[k]? = some (replacedBy items x) := by
    have hk : k < (edits.map (replacedBy items)).length := by
      rw [List.length_map]
      exact (List.getElem?_eq_some_iff.1 hx).1
    rw [List.getElem?_append_left hk, List.getElem?_map, hx]
    rfl
  refine ⟨fun k x y hx hy hxy => ?_, fun k x hx hnone => ?_, ?_⟩
  · rw [place hx, replacedBy_mem h hy hxy]
  · rw [place hx, replacedBy_none hnone]
  · rw [List.drop_append_of_le_length (by simp), List.drop_of_length_le (by simp), List.nil_append]

/-! ### Staged or refused FULL (R163 to R165) -/

theorem newItems_eq (edits items : List EditItem) : newItems edits items = (joining edits items).length := by
  rw [newItems, List.countP_eq_length_filter, joining]
  congr 1
  refine List.filter_congr fun y _ => ?_
  rw [Bool.eq_iff_iff, Bool.not_eq_true', ← Bool.not_eq_true, List.any_eq_true, decide_eq_true_iff]
  simp only [EditItem.sameEntry_iff, not_exists, not_and, ne_eq]
  exact forall₂_congr fun x _ => not_congr eq_comm

theorem editsFit_iff (edits items : List EditItem) :
    editsFit edits items = true ↔ edits.length + (joining edits items).length ≤ 64 := by
  rw [editsFit, newItems_eq, decide_eq_true_iff]
  exact Iff.rfl

/-- The answer is made and the items are staged at different parts of the state. -/
theorem stage_answers (s : State) (tag : Byte) (echo : Bytes) (items : List EditItem) :
    Answers { s with mgt := { s.mgt with edits := items.foldl stageItem s.mgt.edits } } (stage items (replyOk tag echo s)) tag
      0x80 echo := by
  have answered := replyOk_answers s tag echo
  refine answered.carried rfl ?_
  have frame := answered.frame
  generalize replyOk tag echo s = v at frame
  rw [frame]
  exact rfl

/-- The end of an accepted write: staged and, where the line is STILL, applied. -/
theorem write_staged {items : List EditItem} (h : EditsOnce items) (s : State) (tag : Byte) (echo : Bytes) :
    WriteStaged s (applyIfStill (stage items (replyOk tag echo s))) tag echo items := by
  have answered := stage_answers s tag echo items
  obtain ⟨port, idle, still⟩ := applyIfStill_answered answered
  refine ⟨_, staged_setStaged h _, port, fun hidle => ?_, fun hstill hhold => ⟨_, answered, (still hstill).1, ?_⟩⟩
  · rw [idle (hidle.imp_right .inr)]
    exact answered
  · rw [(still hstill).1]
    exact (still hstill).2 hhold

/-- The end of a write that has passed its tests. -/
theorem staged_or_full {items : List EditItem} (h : EditsOnce items) {s t : State} {tag : Byte} {echo : Bytes}
    (ht : t = if editsFit s.mgt.edits items = false then refuse tag .full s else applyIfStill (stage items (replyOk tag echo s))) :
    (s.mgt.edits.length + (joining s.mgt.edits items).length ≤ 64 → WriteStaged s t tag echo items) ∧
      (64 < s.mgt.edits.length + (joining s.mgt.edits items).length → Refuses s t tag 3) := by
  refine ⟨fun hfit => ?_, fun hfull => ?_⟩
  · rw [ht, (editsFit_iff _ _).2 hfit, if_neg nofun]
    exact write_staged h s tag echo
  · have full : editsFit s.mgt.edits items = false := by
      rw [← Bool.not_eq_true, editsFit_iff]
      omega
    exact refuses_of_eq (cause := .full) (ht.trans (if_pos full))

/-! ### The entries of a write -/

/-- Entries of one size, written one after another, read back. -/
theorem flatMap_entry {α : Type} {enc : α → Bytes} {n : Nat} (hlen : ∀ a, (enc a).length = n) {l : List α} {k : Nat} {a : α}
    (h : l[k]? = some a) : ((l.flatMap enc).drop (k * n)).take n = enc a := by
  induction l generalizing k with
  | nil => cases h
  | cons b l ih =>
    rw [List.flatMap_cons]
    cases k with
    | zero =>
      obtain rfl := Option.some.inj h
      rw [Nat.zero_mul, List.drop_zero, ← hlen b, List.take_left]
    | succ k =>
      rw [Nat.succ_mul, Nat.add_comm, ← List.drop_drop, ← hlen b, List.drop_left, hlen b]
      exact ih h

theorem flatMap_length {α : Type} {enc : α → Bytes} {n : Nat} (hlen : ∀ a, (enc a).length = n) (l : List α) :
    (l.flatMap enc).length = l.length * n := by
  rw [List.length_flatMap, List.map_congr_left fun a _ => hlen a, List.map_const', List.sum_replicate, smul_eq_mul]

theorem allSome_map {α β : Type} {f : α → Option β} {l : List α} {m : List β} (hlen : m.length = l.length)
    (h : ∀ (k : Nat) (a : α), l[k]? = some a → f a = m[k]?) : allSome (l.map f) = some m := by
  induction l generalizing m with
  | nil => rw [List.length_eq_zero_iff.1 hlen]; rfl
  | cons a l ih =>
    cases m with
    | nil => cases hlen
    | cons b m =>
      have first : f a = some b := h 0 a rfl
      have rest := ih (m := m) (Nat.succ_inj.1 hlen) fun k a' hk => h (k + 1) a' hk
      rw [List.map_cons, first, allSome, rest]

theorem range_getElem? {n k k' : Nat} (h : (List.range n)[k]? = some k') : k < n ∧ k = k' := by
  obtain ⟨hlt, heq⟩ := List.getElem?_eq_some_iff.1 h
  rw [List.length_range] at hlt
  rw [List.getElem_range] at heq
  exact ⟨hlt, heq⟩

/-- The items of a POSITION-CONFIG write (R161). -/
theorem configItems_eq {s : State} {first : Nat} {cs : List PosConfig} {items : List EditItem} (hend : first + cs.length ≤ 48)
    (hfits : ∀ c ∈ cs, ConfigFits (SlotSizeOf s.fwd.framing) c) (hlen : items.length = cs.length)
    (hitems : ∀ (k : Nat) (p : Pos) (c : PosConfig), p.val = first + k → cs[k]? = some c → items[k]? = some (.config p c))
    {count : Byte} : configItems s first cs.length (writePayload 1 first count (cs.flatMap encodeConfig)) = some items := by
  unfold configItems
  refine allSome_map (by rw [hlen, List.length_range]) fun k k' hrange => ?_
  obtain ⟨hk, rfl⟩ := range_getElem? hrange
  have hc : cs[k]? = some cs[k] := List.getElem?_eq_getElem hk
  have read : decodeConfig s.fwd.framing.testSize (entryAt 8 k (writePayload 1 first count (cs.flatMap encodeConfig))) =
      some cs[k] := by
    rw [entryAt_writePayload, flatMap_entry encodeConfig_length hc, testSize_eq]
    refine decodeConfig_encode _ _ (hfits _ (List.getElem_mem hk)) ?_
    unfold SlotSizeOf
    split <;> decide
  have place : first + k < 48 := by omega
  simp only [read]
  exact (dif_pos place).trans (hitems k ⟨first + k, place⟩ cs[k] rfl hc).symm

/-- The items of a write name its entries once each. -/
theorem items_once {α : Type} {n first : Nat} {l : List α} {items : List EditItem} {make : Fin n → α → EditItem}
    {place : Fin n → Pos ⊕ ClassIdx} (hinj : Function.Injective place) (hentry : ∀ i a, (make i a).entry = place i)
    (hend : first + l.length ≤ n) (hlen : items.length = l.length)
    (hitems : ∀ (k : Nat) (p : Fin n) (a : α), p.val = first + k → l[k]? = some a → items[k]? = some (make p a)) :
    EditsOnce items := by
  have at_ {k : Nat} (hk : k < items.length) : items[k].entry = place ⟨first + k, by omega⟩ := by
    have hl : k < l.length := hlen ▸ hk
    have := hitems k ⟨first + k, by omega⟩ l[k] rfl (List.getElem?_eq_getElem hl)
    rw [List.getElem?_eq_getElem hk] at this
    rw [Option.some.inj this, hentry]
  refine List.pairwise_iff_getElem.2 fun i j hi hj hij => ?_
  rw [List.length_map] at hi hj
  rw [List.getElem_map, List.getElem_map, at_ hi, at_ hj]
  intro h
  have := congrArg Fin.val (hinj h)
  dsimp only at this
  omega

/-- The header of a write that counts its entries. -/
theorem write_header {α : Type} {enc : α → Bytes} {l : List α} {code : Byte} {first : Nat} {t : Table} {payload : Bytes}
    (hp : payload = [code] ++ be 2 first ++ be 1 l.length ++ l.flatMap enc) (hlen : ∀ a, (enc a).length = t.entrySize)
    (hne : l ≠ []) (hend : first + l.length ≤ t.entries) (hsmall : l.length < 256) (hfirst : first < 65536) :
    payload = writePayload code first (BitVec.ofNat 8 l.length) (l.flatMap enc) ∧
      (BitVec.ofNat 8 l.length).toNat = l.length ∧
      writeFits t (writePayload code first (BitVec.ofNat 8 l.length) (l.flatMap enc)) = true := by
  have count : (BitVec.ofNat 8 l.length).toNat = l.length := ofNat_toNat hsmall
  refine ⟨by rw [hp, be_one]; exact rfl, count, (writeFits_iff code _ _ t hfirst).2 ?_⟩
  rw [count]
  exact ⟨List.length_pos_of_ne_nil hne, flatMap_length hlen l, hend⟩

/-- Settles O41: the entries are read back, and their items staged or refused. -/
theorem configWriteIsStaged : Obligations.ConfigWriteIsStaged := by
  unfold Obligations.ConfigWriteIsStaged
  intro s f first cs items hne hend h hfits hlen hitems
  obtain ⟨payload, count, fits⟩ := write_header (t := .positionConfig) h.payload encodeConfig_length hne hend (by omega) (by omega)
  refine ⟨_, onRequest_of_arrives h.toArrives _, ?_⟩
  rw [payload, takeWrite_config]
  refine staged_or_full (items_once (make := .config) (place := Sum.inl) Sum.inl_injective (fun _ _ => rfl) hend hlen hitems) ?_
  unfold takeConfigWrite
  simp only [fits, writePayload_count, count, writePayload_first 1 _ _ (show first < 65536 by omega),
    configItems_eq hend hfits hlen hitems]
  exact if_neg nofun

end Sys2Proof.Machine
end

section
/-! PROOFS. The layouts of the table entries (08, Layouts and code values; R153): each entry is numbers written one behind
another, shown where the layout places them. -/

namespace Sys2Proof.Machine

/-! ### Codes -/

theorem flagBit_eq (b : Bool) (k : Nat) : flagBit b k = 2 ^ k * b.toNat := by
  cases b <;> simp [flagBit]

theorem oneIf_eq (b : Bool) : (if b = true then 1 else 0) = b.toNat := by
  cases b <;> rfl

theorem phaseNumber_eq (p : Phase) :
    [Phase.disabled, .vacant, .settling, .identifying, .challenging, .held, .lost].idxOf p = p.code := by
  cases p <;> rfl

theorem roundNumber_eq (k : RoundKind) : [RoundKind.new, .due, .sweep, .manual].idxOf k = k.code := by
  cases k <;> rfl

theorem pendingNumber_eq (x : Option RequestKind) :
    [none, some RequestKind.ident, some .new, some .due].idxOf x = pendingCode x := by
  rcases x with _ | x
  · rfl
  · cases x <;> rfl

theorem watchNumber_eq (w : WatchForm) : [WatchForm.allSet, .allClear].idxOf w = w.code := by
  cases w <;> rfl

theorem policyNumber_eq (a : GateAction) : policyNumber a = a.code := by
  cases a <;> rfl

theorem causeNumber_eq (c : ResetCause) : [ResetCause.none, .power, .pin, .line].idxOf c = c.code := by
  cases c <;> rfl

theorem resultNumber_eq (x : KeyResult) :
    [KeyResult.none, .programmed, .programFaulty, .erased, .eraseFaulty, .protectDone].idxOf x = x.code := by
  cases x <;> rfl

/-- Numbers written stand where a layout places them. -/
theorem written_shows {b : Bytes} {numbers : List (Nat × Nat)} (hb : b = written numbers)
    (h : ∀ x ∈ numbers, x.2 < 256 ^ x.1) : Shows b (placedFrom 0 numbers) :=
  hb ▸ shows_written h []

theorem written_cons (width value : Nat) (l : List (Nat × Nat)) : written ((width, value) :: l) = be width value ++ written l :=
  List.flatMap_cons

theorem written_nil : written [] = [] := rfl

/-! ### POSITION-CONFIG -/

/-- The numbers of a POSITION-CONFIG entry. -/
def configNumbers (c : PosConfig) : List (Nat × Nat) :=
  [(1, c.enabled.toNat), (1, c.settleCycles), (1, [WatchForm.allSet, .allClear].idxOf c.watchForm), (1, c.gateOffset),
    (2, c.watchMask.toNat), (1, c.gateLength), (1, (c.clampOffset.map (fun o => 128 + o)).getD 0)]

theorem encodeConfig_eq_written (c : PosConfig) : encodeConfig c = written (configNumbers c) := by
  simp only [encodeConfig, configNumbers, written_cons, written_nil, oneIf_eq, watchNumber_eq, List.append_assoc,
    List.append_nil]
  cases c.clampOffset <;> rfl

theorem encodeConfig_shows {c : PosConfig} (h : ConfigFits 8 c) : ShowsConfig (encodeConfig c) c := by
  refine written_shows (encodeConfig_eq_written c) ?_
  obtain ⟨⟨-, hsettle⟩, ⟨-, hlong, hgate⟩, hclamp⟩ := h
  have enabled := Bool.toNat_le c.enabled
  have form := watchForm_code_le c.watchForm
  have mask := c.watchMask.isLt
  simp only [configNumbers, watchNumber_eq, List.forall_mem_cons]
  refine ⟨by omega, by omega, by omega, by omega, by omega, by omega, ?_, List.forall_mem_nil _⟩
  cases hc : c.clampOffset with
  | none => decide
  | some o =>
    have := hclamp o hc
    show 128 + o < 256
    omega

/-! ### CLASS -/

/-- The numbers of a CLASS entry. -/
def classNumbers (e : ClassEntry) : List (Nat × Nat) :=
  [(2, e.code.toNat), (1, e.keySlot.val), (1, e.repeatCount), (2, e.sweepPeriod), (1, e.strokeCap),
    (1, policyNumber e.policyCf), (1, policyNumber e.policyPending), (1, policyNumber e.policyWorn),
    (2, e.clampValue), (2, twosComplement e.wPass), (2, twosComplement e.wOdoOk), (2, twosComplement e.wFail),
    (2, twosComplement e.wNoAnswer), (2, twosComplement e.wDup), (2, twosComplement e.wAhead), (1, e.lagRate), (1, e.slack),
    (2, e.lagCap), (2, e.odoTol), (4, e.lifeLimit), (1, e.failLatch.toNat), (1, e.decayStep), (2, twosComplement e.tGen),
    (2, twosComplement e.tCf), (2, e.hyst), (2, e.decayPeriod), (4, 0)]

theorem encodeClass_eq_written (e : ClassEntry) : encodeClass e = written (classNumbers e) := by
  unfold encodeClass classNumbers
  simp only [written_cons, policyNumber_eq]
  rw [written_nil]
  simp only [beSigned_eq, oneIf_eq, List.append_nil, List.append_assoc]

theorem classNumbers_fit_of_fits {e : ClassEntry} (h : ClassFits e) : ∀ x ∈ classNumbers e, x.2 < 256 ^ x.1 := by
  obtain ⟨-, ⟨hrepeat, hsweep, -, hcap, hclamp⟩, -, -, ⟨hrate, hslack, hlag, htol, hlife⟩, ⟨hstep, hperiod⟩,
    ⟨-, -, -, -, hhyst, -⟩⟩ := h
  have code := e.code.isLt
  have slot := e.keySlot.isLt
  have cf := gateAction_code_le e.policyCf
  have pending := gateAction_code_le e.policyPending
  have worn := gateAction_code_le e.policyWorn
  have latch := Bool.toNat_le e.failLatch
  simp only [classNumbers, policyNumber_eq, List.forall_mem_cons]
  exact ⟨by omega, by omega, by omega, by omega, by omega, by omega, by omega, by omega, by omega, twosComplement_lt _,
    twosComplement_lt _, twosComplement_lt _, twosComplement_lt _, twosComplement_lt _, twosComplement_lt _, by omega,
    by omega, by omega, by omega, by omega, by omega, by omega, twosComplement_lt _, twosComplement_lt _, by omega,
    by omega, by omega, List.forall_mem_nil _⟩

theorem classNumbers_fit {e : ClassEntry} (h : ClassFits e ∨ e = ClassEntry.empty) : ∀ x ∈ classNumbers e, x.2 < 256 ^ x.1 := by
  rcases h with h | rfl
  · exact classNumbers_fit_of_fits h
  · have zero : classNumbers ClassEntry.empty = [2, 1, 1, 2, 1, 1, 1, 1, 2, 2, 2, 2, 2, 2, 2, 1, 1, 2, 2, 4, 1, 1, 2, 2, 2, 2, 4].map (fun w => (w, 0)) := rfl
    rw [zero, List.forall_mem_map]
    exact fun w _ => Nat.pow_pos (by decide)

theorem encodeClass_shows {e : ClassEntry} (h : ClassFits e ∨ e = ClassEntry.empty) : ShowsClass (encodeClass e) e :=
  written_shows (encodeClass_eq_written e) (classNumbers_fit h)

/-! ### POSITION-STATE -/

/-- The numbers of a POSITION-STATE entry. -/
def runtimeNumbers (r : Runtime) : List (Nat × Nat) :=
  [(1, 16 * [Phase.disabled, .vacant, .settling, .identifying, .challenging, .held, .lost].idxOf r.phase +
      verdictNumber r.verdict),
    (1, (r.reason.map reasonNumber).getD 0),
    (1, 128 * r.latch.toNat + 64 * r.worn.toNat + 32 * r.released.toNat + 16 * r.keyMissing.toNat +
      8 * r.strokeJump.toNat + 4 * r.identity.isSome.toNat + 2 * r.classIndex.isSome.toNat + r.odoRef.isSome.toNat),
    (1, 64 * [RoundKind.new, .due, .sweep, .manual].idxOf r.roundKind + 8 * r.remaining +
      2 * [none, some RequestKind.ident, some .new, some .due].idxOf r.pendingRequest + r.lastOdo.isSome.toNat),
    (2, twosComplement r.score), (6, (r.identity.map (fun i => i.serial.toNat)).getD 0),
    (2, (r.identity.map (fun i => i.cls.toNat)).getD 0), (4, r.strokes), (4, (r.odoRef.map (fun o => o.odo.toNat)).getD 0),
    (4, (r.odoRef.map (fun o => o.strokes)).getD 0), (4, (r.lastOdo.map (fun o => o.toNat)).getD 0), (2, r.decayCount)]

theorem encodeRuntime_eq_written (r : Runtime) : encodeRuntime r = written (runtimeNumbers r) := by
  simp only [encodeRuntime, runtimeNumbers, written_cons, written_nil, phaseNumber_eq, roundNumber_eq, pendingNumber_eq,
    verdictNumber_eq_code, beSigned_eq, flagBit_eq, List.append_assoc, List.append_nil, Nat.reducePow, Nat.one_mul,
    Nat.mul_comm 16 r.phase.code, Nat.mul_comm 64 r.roundKind.code, Nat.mul_comm 8 r.remaining,
    Nat.mul_comm 2 (pendingCode r.pendingRequest)]
  rcases r.reason with _ | reason <;> rcases r.identity with _ | identity <;> rcases r.odoRef with _ | odoRef <;>
    rcases r.lastOdo with _ | lastOdo <;> simp [reasonNumber_eq_code]

theorem runtimeNumbers_fit {r : Runtime} (h : RuntimeFits r) : ∀ x ∈ runtimeNumbers r, x.2 < 256 ^ x.1 := by
  obtain ⟨-, hstrokes, href, hdecay, hleft⟩ := h
  have phase : r.phase.code ≤ 6 := by cases r.phase <;> decide
  have round : r.roundKind.code ≤ 3 := by cases r.roundKind <;> decide
  have pending : pendingCode r.pendingRequest ≤ 3 := by
    rcases r.pendingRequest with _ | x
    · decide
    · cases x <;> decide
  have verdict := verdictNumber_lt r.verdict
  have reason : (r.reason.map reasonNumber).getD 0 < 256 := by
    cases r.reason with
    | none => decide
    | some x => exact reasonNumber_lt x
  have bits : r.latch.toNat ≤ 1 ∧ r.worn.toNat ≤ 1 ∧ r.released.toNat ≤ 1 ∧ r.keyMissing.toNat ≤ 1 ∧ r.strokeJump.toNat ≤ 1 ∧
      r.identity.isSome.toNat ≤ 1 ∧ r.classIndex.isSome.toNat ≤ 1 ∧ r.odoRef.isSome.toNat ≤ 1 ∧ r.lastOdo.isSome.toNat ≤ 1 :=
    ⟨Bool.toNat_le _, Bool.toNat_le _, Bool.toNat_le _, Bool.toNat_le _, Bool.toNat_le _, Bool.toNat_le _, Bool.toNat_le _,
      Bool.toNat_le _, Bool.toNat_le _⟩
  have ident : (r.identity.map (fun i => i.serial.toNat)).getD 0 < 256 ^ 6 ∧ (r.identity.map (fun i => i.cls.toNat)).getD 0 < 256 ^ 2 := by
    cases r.identity with
    | none => decide
    | some i => exact ⟨i.serial.isLt, i.cls.isLt⟩
  have reference : (r.odoRef.map (fun o => o.odo.toNat)).getD 0 < 256 ^ 4 ∧ (r.odoRef.map (fun o => o.strokes)).getD 0 < 256 ^ 4 := by
    cases ho : r.odoRef with
    | none => decide
    | some o => exact ⟨o.odo.isLt, href o ho⟩
  have last : (r.lastOdo.map (fun o => o.toNat)).getD 0 < 256 ^ 4 := by
    cases r.lastOdo with
    | none => decide
    | some o => exact o.isLt
  simp only [runtimeNumbers, phaseNumber_eq, roundNumber_eq, pendingNumber_eq, List.forall_mem_cons]
  exact ⟨by omega, reason, by omega, by omega, twosComplement_lt _, ident.1, ident.2, hstrokes, reference.1, reference.2, last,
    by omega, List.forall_mem_nil _⟩

theorem encodeRuntime_shows {r : Runtime} (h : RuntimeFits r) : ShowsRuntime (encodeRuntime r) r :=
  written_shows (encodeRuntime_eq_written r) (runtimeNumbers_fit h)

/-! ### SIGHTING and REVOCATION -/

/-- The numbers of a SIGHTING entry, the holders as a set of bits. -/
def sightingNumbers (x : Sighting) : List (Nat × Nat) :=
  [(1, 128 + 64 * x.lastOdo.isSome.toNat), (1, 0), (2, x.cls.toNat), (6, x.serial.toNat),
    (4, (x.lastOdo.map (fun o => o.toNat)).getD 0), (6, beNat (positionSet fun p => x.holders.contains p)), (4, 0)]

theorem encodeSighting_eq_written (x : Sighting) : encodeSighting (some x) = written (sightingNumbers x) := by
  have holders : be 6 (beNat (positionSet fun p => x.holders.contains p)) = positionSet fun p => x.holders.contains p := by
    have := be_beNat (positionSet fun p => x.holders.contains p)
    rwa [positionSet_length] at this
  simp only [encodeSighting, sightingNumbers, written_cons, written_nil, holders, flagBit_eq, Nat.reducePow,
    List.append_assoc, List.append_nil]
  cases x.lastOdo <;> rfl

theorem encodeSighting_shows (e : Option Sighting) : ShowsSighting (encodeSighting e) e := by
  refine ⟨fun h => ?_, fun x h => ?_⟩ <;> subst h
  · rfl
  · have fit : ∀ y ∈ sightingNumbers x, y.2 < 256 ^ y.1 := by
      have mark := Bool.toNat_le x.lastOdo.isSome
      have last : (x.lastOdo.map (fun o => o.toNat)).getD 0 < 256 ^ 4 := by
        cases x.lastOdo with
        | none => decide
        | some o => exact o.isLt
      have holders := beNat_lt (positionSet fun p => x.holders.contains p)
      rw [positionSet_length] at holders
      simp only [sightingNumbers, List.forall_mem_cons]
      exact ⟨by omega, by decide, x.cls.isLt, x.serial.isLt, last, holders, by decide, List.forall_mem_nil _⟩
    have shows_ := written_shows (encodeSighting_eq_written x) fit
    obtain ⟨mark, zero, cls, serial, last, holders, reserved, -⟩ : _ ∧ _ ∧ _ ∧ _ ∧ _ ∧ _ ∧ _ ∧ _ := by
      simpa only [Shows, placedFrom, sightingNumbers, List.forall_mem_cons] using shows_
    refine ⟨?_, fun p => ?_⟩
    · simp only [Shows, List.forall_mem_cons]
      exact ⟨mark, zero, cls, serial, last, reserved, List.forall_mem_nil _⟩
    · rw [show beNat (((encodeSighting (some x)).drop 14).take 6) = _ from holders, positionSet_testBit, Bool.eq_iff_iff,
        List.contains_iff_mem, decide_eq_true_iff]

/-- The numbers of a REVOCATION entry. -/
def revocationNumbers (x : Revocation) : List (Nat × Nat) :=
  [(2, x.cls.toNat), (3, x.lot.toNat)] ++ match x.scope with
    | .wholeLot => [(1, 0), (6, 0)]
    | .serial n => [(1, 1), (6, n.toNat)]

theorem encodeRevocation_eq_written (x : Revocation) : encodeRevocation x = written (revocationNumbers x) := by
  obtain ⟨cls, lot, scope⟩ := x
  cases scope <;> simp [encodeRevocation, revocationNumbers, written]

theorem encodeRevocationView_shows (e : Option Revocation) : ShowsRevocation (encodeRevocationView e) e := by
  refine ⟨fun h => ?_, fun x h => ?_⟩ <;> subst h
  · rfl
  · have fit : ∀ y ∈ revocationNumbers x, y.2 < 256 ^ y.1 := by
      obtain ⟨cls, lot, scope⟩ := x
      cases scope with
      | wholeLot =>
        simp only [revocationNumbers, List.cons_append, List.nil_append, List.forall_mem_cons]
        exact ⟨cls.isLt, lot.isLt, by decide, by decide, List.forall_mem_nil _⟩
      | serial n =>
        simp only [revocationNumbers, List.cons_append, List.nil_append, List.forall_mem_cons]
        exact ⟨cls.isLt, lot.isLt, by decide, n.isLt, List.forall_mem_nil _⟩
    have shown := written_shows (encodeRevocation_eq_written x) fit
    obtain ⟨cls, lot, scope⟩ := x
    cases scope <;> exact shown

/-! ### SETUP, KEY-STATUS and DEVICE -/

/-- The numbers of a SETUP entry. -/
def setupNumbers (p : Setup) : List (Nat × Nat) :=
  [(1, p.positionCount), (1, p.gapSlots), (1, p.verifierSlots), (1, p.answerTimeout), (2, p.stillTimeout), (1, p.lostCycles),
    (1, policyNumber p.unknownPolicy), (2, p.undecidedRetry), (2, p.unknownClamp), (1, p.defaultStrokeCap), (3, 0)]

theorem encodeSetup_eq_written (p : Setup) : encodeSetup p = written (setupNumbers p) := by
  simp only [encodeSetup, setupNumbers, written_cons, written_nil, policyNumber_eq, List.append_assoc, List.append_nil]

theorem encodeSetup_shows {p : Setup} (h : SetupFits p) : ShowsSetup (encodeSetup p) p := by
  refine written_shows (encodeSetup_eq_written p) ?_
  obtain ⟨⟨-, hcount⟩, ⟨-, hgap, -, hslots⟩, ⟨-, hanswer, -, hstill⟩, ⟨-, hlost, -, hretry⟩, ⟨hclamp, -, hcap⟩⟩ := h
  have policy := gateAction_code_le p.unknownPolicy
  simp only [setupNumbers, policyNumber_eq, List.forall_mem_cons]
  exact ⟨by omega, by omega, by omega, by omega, by omega, by omega, by omega, by omega, by omega, by omega, by decide,
    List.forall_mem_nil _⟩

/-- A field of a part of the bytes. -/
theorem fieldNat_within {off n size k : Nat} {b : Bytes} (h : off + n ≤ size) :
    fieldNat off n ((b.drop k).take size) = fieldNat (k + off) n b := by
  rw [fieldNat, fieldNat, field, field, List.drop_take, List.take_take, List.drop_drop, Nat.min_eq_left (by omega)]

theorem encodeKeyStatus_shows (k : KeyStore) : ShowsKeyStatus (encodeKeyStatus k) k := by
  intro i
  have slotLength (x : KeySlot) : (be 1 x.code ++ be 4 (checkValue x).toNat).length = 5 := by simp
  have place : k.slots.toList[i.val]? = some k.slots[i] := by
    rw [List.getElem?_eq_getElem (by simp), Vector.getElem_toList]
    rfl
  have entry := flatMap_entry slotLength place
  have fit : ∀ x ∈ [(1, k.slots[i].code), (4, (checkValue k.slots[i]).toNat)], x.2 < 256 ^ x.1 := by
    have state : k.slots[i].code ≤ 2 := by cases k.slots[i] <;> simp [KeySlot.code]
    simp only [List.forall_mem_cons]
    exact ⟨by omega, (checkValue k.slots[i]).isLt, List.forall_mem_nil _⟩
  have shown := written_shows (entry.trans (by simp [written])) fit
  rw [Nat.mul_comm] at shown
  have state := (fieldNat_within (show 0 + 1 ≤ 5 by decide)).symm.trans (shown (0, 1, k.slots[i].code) List.mem_cons_self)
  have check := (fieldNat_within (show 1 + 4 ≤ 5 by decide)).symm.trans
    (shown (1, 4, (checkValue k.slots[i]).toNat) (List.mem_cons_of_mem _ List.mem_cons_self))
  refine List.forall_mem_cons.2 ⟨state.trans ?_, List.forall_mem_cons.2 ⟨check, List.forall_mem_nil _⟩⟩
  cases k.slots[i] <;> rfl

/-- The numbers of a DEVICE entry. -/
def deviceNumbers (cause : ResetCause) (k : KeyStore) : List (Nat × Nat) :=
  [(2, 0x5D21), (2, 0x0048), (1, 1), (1, [ResetCause.none, .power, .pin, .line].idxOf cause), (4, k.epoch.toNat),
    (1, k.boundary), (1, 16 * k.op.code +
      [KeyResult.none, .programmed, .programFaulty, .erased, .eraseFaulty, .protectDone].idxOf k.lastResult), (4, 0)]

theorem encodeDevice_eq_written (cause : ResetCause) (k : KeyStore) : encodeDevice cause k = written (deviceNumbers cause k) := by
  have status : [keyStoreByte k] = be 1 (16 * k.op.code + k.lastResult.code) := by
    rw [be_one, Nat.mul_comm]
    rfl
  simp only [encodeDevice, deviceNumbers, written_cons, written_nil, status, causeNumber_eq, resultNumber_eq, List.append_assoc,
    List.append_nil]

theorem encodeDevice_shows (cause : ResetCause) {k : KeyStore} (h : k.boundary ≤ 16) : ShowsDevice (encodeDevice cause k) cause k := by
  have fit : ∀ x ∈ deviceNumbers cause k, x.2 < 256 ^ x.1 := by
    have codes := KeyOp.code_le k.op
    have result := KeyResult.code_le k.lastResult
    have reset : cause.code ≤ 3 := by cases cause <;> decide
    simp only [deviceNumbers, causeNumber_eq, resultNumber_eq, List.forall_mem_cons]
    exact ⟨by decide, by decide, by decide, by omega, k.epoch.isLt, by omega, by omega, by decide, List.forall_mem_nil _⟩
  have shown := written_shows (encodeDevice_eq_written cause k) fit
  unfold deviceNumbers at shown
  unfold ShowsDevice
  cases hop : k.op <;> rw [hop] at shown <;> exact shown

end Sys2Proof.Machine
end

section
/-! PROOFS. READ-ENTRIES (R155 to R157, R198) and the CLASS write (R159, R162) (O40, O42). -/

namespace Sys2Proof.Machine

/-! ### READ-ENTRIES (O40) -/

/-- The rows of the table of tables (08, Tables), as the model has them. -/
theorem table_row {k size entries most : Nat} {table : Table}
    (h : (k, size, entries, most) ∈ [(1, 8, 48, 30), (2, 32, 48, 7), (3, 48, 32, 5), (4, 24, 128, 10), (5, 12, 512, 20),
      (6, 16, 1, 1), (7, 80, 1, 1), (8, 16, 1, 1)]) (ht : tableOf k = some table) :
    table.entrySize = size ∧ table.entries = entries ∧ table.perReply = most ∧ (table = .keyStatus ↔ k = 7) ∧
      (table = .device ↔ k = 8) := by
  simp only [List.mem_cons, Prod.mk.injEq, List.not_mem_nil, or_false] at h
  rcases h with ⟨rfl, rfl, rfl, rfl⟩ | ⟨rfl, rfl, rfl, rfl⟩ | ⟨rfl, rfl, rfl, rfl⟩ | ⟨rfl, rfl, rfl, rfl⟩ |
    ⟨rfl, rfl, rfl, rfl⟩ | ⟨rfl, rfl, rfl, rfl⟩ | ⟨rfl, rfl, rfl, rfl⟩ | ⟨rfl, rfl, rfl, rfl⟩
  all_goals
    obtain rfl := Option.some.inj ht.symm
    decide

/-- Every entry of a table has the size of the table. -/
theorem entryBytes_length (s : State) {t : Table} {i : Nat} (h : i < t.entries) : (entryBytes s t i).length = t.entrySize := by
  cases t with
  | positionConfig => exact (congrArg List.length (dif_pos h)).trans (encodeConfig_length _)
  | positionState => exact (congrArg List.length (dif_pos h)).trans (encodeRuntime_length _)
  | cls => exact (congrArg List.length (dif_pos h)).trans (encodeClass_length _)
  | sighting => exact encodeSighting_length _
  | revocation => exact encodeRevocationView_length _
  | setup => exact encodeSetup_length _
  | keyStatus => exact encodeKeyStatus_length _
  | device => exact encodeDevice_length _ _

/-- An answer changes FWD alone. -/
theorem Answers.atPort {s t : State} {tag code : Byte} {payload : Bytes} (h : Answers s t tag code payload) :
    ∃ fwd, t = { s with fwd := fwd } := ⟨_, h.frame⟩

/-- The answer to a read and its effect are made at different parts of the state. -/
theorem readEffect_answers (s : State) (tag : Byte) (t : Table) (given : Nat) (payload : Bytes) :
    Answers (if t = .device ∧ given ≠ 0 then { s with mgt := { s.mgt with resetCause := .none } } else s)
      (readEffect t given (replyOk tag payload s)) tag 0x80 payload := by
  have answered := replyOk_answers s tag payload
  unfold readEffect
  split
  · refine answered.carried rfl ?_
    obtain ⟨fwd, hfwd⟩ := answered.atPort
    rw [hfwd]
  · exact answered

section

variable {s : State} {tag code count : Byte} {first : Nat} (hfirst : first < 65536)

theorem takeRead_length {payload : Bytes} (h : payload.length ≠ 4) : takeRead tag payload s = refuse tag .range s := if_pos h

theorem takeRead_untabled (h : code = 0 ∨ 8 < code.toNat) :
    takeRead tag (writePayload code first count []) s = refuse tag .range s := by
  have none : tableOf code.toNat = none := by
    cases ht : tableOf code.toNat with
    | none => rfl
    | some t =>
      have number := code_of_tableOf ht
      have range : 1 ≤ t.number ∧ t.number ≤ 8 := by cases t <;> decide
      rcases h with rfl | h
      · exact absurd number (by intro h; rw [← h] at range; exact absurd range.1 (by decide))
      · omega
  unfold takeRead
  rw [writePayload_code, none]
  exact if_neg fun h => h (writePayload_length code count [])

include hfirst

theorem takeRead_tabled {t : Table} (h : tableOf code.toNat = some t) :
    takeRead tag (writePayload code first count []) s =
      if t.entries ≤ first then refuse tag .range s
      else if t = .keyStatus ∧ s.kst.busy = true then refuse tag .busy s
      else readEffect t (countGiven t first count.toNat)
        (replyOk tag (entriesFrom s t first (countGiven t first count.toNat)) s) := by
  unfold takeRead
  simp only [writePayload_code, h, writePayload_first code count [] hfirst, writePayload_count]
  exact if_neg fun h => h (writePayload_length code count [])

end

/-- Settles O40: the layouts, then the rows of the table of tables. -/
theorem readEntriesAnswersFromTheTables : Obligations.ReadEntriesAnswersFromTheTables := by
  unfold Obligations.ReadEntriesAnswersFromTheTables
  refine ⟨fun s => ⟨fun p h => ?_, fun p h => ?_, fun i h => ?_, fun i => encodeSighting_shows _,
    fun i => encodeRevocationView_shows _, encodeSetup_shows, encodeKeyStatus_shows _, encodeDevice_shows _⟩,
    fun s f code first count => ⟨fun h hlen => ⟨_, onRequest_of_arrives h _, refuses_of_eq (takeRead_length hlen)⟩,
      fun h => ?_⟩⟩
  · rw [show entryBytes s .positionState p.val = encodeRuntime s.run[p] from dif_pos p.isLt]
    exact encodeRuntime_shows h
  · rw [show entryBytes s .positionConfig p.val = encodeConfig s.configs[p] from dif_pos p.isLt]
    exact encodeConfig_shows h
  · rw [show entryBytes s .cls i.val = encodeClass s.mgt.classes[i] from dif_pos i.isLt]
    exact encodeClass_shows h
  · have payload : f.payload = writePayload code first.toNat count [] := h.payload.trans (List.append_nil _).symm
    have hfirst : first.toNat < 65536 := first.isLt
    have exec_read : exec (.readEntries f) s = .next (takeRead f.tag (writePayload code first.toNat count []) s) := by
      rw [← payload]
      exact onRequest_of_arrives h.toArrives _
    refine ⟨fun hcode => ⟨_, exec_read, refuses_of_eq (takeRead_untabled hcode)⟩, fun k size entries most table hrow hcode ht => ?_⟩
    obtain ⟨rfl, rfl, rfl, hstatus, hdevice⟩ := table_row hrow ht
    have tabled := takeRead_tabled (s := s) (tag := f.tag) (count := count) hfirst (hcode ▸ ht)
    refine ⟨fun i hi => entryBytes_length s hi, fun hbeyond => ⟨_, exec_read, refuses_of_eq (tabled.trans (if_pos hbeyond))⟩,
      fun hin hk hbusy => ⟨_, exec_read, refuses_of_eq (cause := .busy) ?_⟩, fun hin hfree given hgiven => ⟨_, exec_read, ?_⟩⟩
    · exact tabled.trans ((if_neg (Nat.not_le.2 hin)).trans (if_pos ⟨hstatus.2 hk, hbusy⟩))
    · have idle : ¬ (table = .keyStatus ∧ s.kst.busy = true) := fun ⟨hkey, hbusy⟩ => by
        rcases hfree with hk | hfree
        · exact hk (hstatus.1 hkey)
        · rw [hfree] at hbusy
          cases hbusy
      rw [tabled, if_neg (Nat.not_le.2 hin), if_neg idle, show countGiven table first.toNat count.toNat = given from hgiven.symm]
      simp only [← hdevice]
      exact readEffect_answers s f.tag table given _

/-! ### A CLASS entry read back -/

theorem signedNat_of_shown {b : Bytes} {off : Nat} {v : Int} (h : fieldNat off 2 b = twosComplement v) (hlow : -32768 ≤ v)
    (hhigh : v ≤ 32767) : signedNat (field off 2 b) = v := by
  have value : beNat (field off 2 b) = beNat (beSigned v) := by
    rw [beSigned_eq, beNat_be_of_lt 2 _ (twosComplement_lt v)]
    exact h
  refine Eq.trans ?_ (signed_back v hlow hhigh)
  rw [signedNat, value, signedNat]

/-- The weights and thresholds of an entry that names a class are 16-bit numbers. -/
theorem ClassFits.words {e : ClassEntry} (h : ClassFits e) :
    ∀ w ∈ [e.wPass, e.wOdoOk, e.wFail, e.wNoAnswer, e.wDup, e.wAhead, e.tGen, e.tCf], -32768 ≤ w ∧ w ≤ 32767 := by
  obtain ⟨-, -, ⟨hpass, hpass', hodo, hodo'⟩, hlosses, -, -, ⟨htgen, htgen', htcf, htcf', -, -⟩⟩ := h
  simp only [List.forall_mem_cons] at hlosses ⊢
  obtain ⟨hfail, hanswer, hdup, hahead, -⟩ := hlosses
  exact ⟨by omega, by omega, by omega, by omega, by omega, by omega, by omega, by omega, List.forall_mem_nil _⟩

/-- The numbers of a CLASS entry that names a class read back as its fields. -/
theorem classFields_encode {e : ClassEntry} (h : ClassFits e) :
    classFields (encodeClass e) e.policyCf e.policyPending e.policyWorn = e := by
  have shown : ∀ x ∈ placedFrom 0 (classNumbers e), fieldNat x.1 x.2.1 (encodeClass e) = x.2.2 := encodeClass_shows (.inl h)
  have words := h.words
  simp only [placedFrom, classNumbers, List.forall_mem_cons, Nat.reduceAdd] at shown words
  obtain ⟨code, slot, repeats, sweep, cap, -, -, -, clamp, wPass, wOdoOk, wFail, wNoAnswer, wDup, wAhead, lagRate, slack, lagCap,
    odoTol, lifeLimit, failLatch, decayStep, tGen, tCf, hyst, decayPeriod, -, -⟩ := shown
  obtain ⟨rPass, rOdoOk, rFail, rNoAnswer, rDup, rAhead, rGen, rCf, -⟩ := words
  have latch : decide (e.failLatch.toNat = 1) = e.failLatch := by cases e.failLatch <;> rfl
  unfold classFields
  rw [code, slot, repeats, sweep, cap, clamp, signedNat_of_shown wPass rPass.1 rPass.2, signedNat_of_shown wOdoOk rOdoOk.1 rOdoOk.2,
    signedNat_of_shown wFail rFail.1 rFail.2, signedNat_of_shown wNoAnswer rNoAnswer.1 rNoAnswer.2,
    signedNat_of_shown wDup rDup.1 rDup.2, signedNat_of_shown wAhead rAhead.1 rAhead.2, lagRate, slack, lagCap, odoTol, lifeLimit,
    failLatch, decayStep, signedNat_of_shown tGen rGen.1 rGen.2, signedNat_of_shown tCf rCf.1 rCf.2, hyst, decayPeriod,
    BitVec.ofNat_toNat, BitVec.setWidth_eq, latch, Fin.ofNat_val_eq_self]

theorem ClassFits.inRange {e : ClassEntry} (h : ClassFits e) : e.inRange = true := by
  obtain ⟨-, ⟨hrepeat, -, hcap, -, -⟩, ⟨hpass, hpass', hodo, hodo'⟩, hlosses, ⟨hrate, -, hlag, -, -⟩, ⟨hstep, -⟩,
    ⟨htgen, htgen', htcf, htcf', hhyst, hapart⟩⟩ := h
  simp only [List.forall_mem_cons] at hlosses
  obtain ⟨hfail, hanswer, hdup, hahead, -⟩ := hlosses
  simp only [ClassEntry.inRange, Bool.and_eq_true, decide_eq_true_eq]
  omega

theorem decodeClass_encode {e : ClassEntry} (h : ClassFits e ∨ e = ClassEntry.empty) :
    decodeClass (encodeClass e) = some e := by
  have shown : ∀ x ∈ placedFrom 0 (classNumbers e), fieldNat x.1 x.2.1 (encodeClass e) = x.2.2 := encodeClass_shows h
  simp only [placedFrom, classNumbers, List.forall_mem_cons, Nat.reduceAdd, policyNumber_eq] at shown
  obtain ⟨code, slot, -, -, -, cf, pending, worn, -, -, -, -, -, -, -, -, -, -, -, -, failLatch, -, -, -, -, -, reserved, -⟩ := shown
  rcases h with h | rfl
  · have named : e.code.toNat ≠ 0 := fun h0 => h.named (BitVec.eq_of_toNat_eq h0)
    have latch := Bool.toNat_le e.failLatch
    unfold decodeClass
    rw [code, if_neg named, cf, pending, worn, gateAction_back, gateAction_back, gateAction_back]
    simp only [classFields_encode h, slot, failLatch, reserved]
    exact if_pos ⟨by omega, latch, trivial, h.inRange⟩
  · decide

/-! ### The CLASS write (O42) -/

theorem classItems_eq {first : Nat} {es : List ClassEntry} {items : List EditItem} (hend : first + es.length ≤ 32)
    (hfits : ∀ e ∈ es, ClassFits e ∨ e = ClassEntry.empty) (hlen : items.length = es.length)
    (hitems : ∀ (k : Nat) (c : ClassIdx) (e : ClassEntry), c.val = first + k → es[k]? = some e → items[k]? = some (.cls c e))
    {count : Byte} : classItems first es.length (writePayload 3 first count (es.flatMap encodeClass)) = some items := by
  unfold classItems
  refine allSome_map (by rw [hlen, List.length_range]) fun k k' hrange => ?_
  obtain ⟨hk, rfl⟩ := range_getElem? hrange
  have he : es[k]? = some es[k] := List.getElem?_eq_getElem hk
  have read : decodeClass (entryAt 48 k (writePayload 3 first count (es.flatMap encodeClass))) = some es[k] := by
    rw [entryAt_writePayload, flatMap_entry encodeClass_length he]
    exact decodeClass_encode (hfits _ (List.getElem_mem hk))
  have place : first + k < 32 := by omega
  simp only [read]
  exact (dif_pos place).trans (hitems k ⟨first + k, place⟩ es[k] rfl he).symm

theorem overlay_of_not_mem {items : List EditItem} {c : ClassIdx} (hno : ∀ e, .cls c e ∉ items) (classes : Vector ClassEntry 32) :
    (overlay classes items)[c] = classes[c] := by
  induction items generalizing classes with
  | nil => rfl
  | cons x items ih =>
    refine (ih (fun e he => hno e (List.mem_cons_of_mem _ he)) _).trans ?_
    cases x with
    | config p c' => rfl
    | cls i e =>
      have apart : i.val ≠ c.val := fun h => hno e (by rw [Fin.ext h]; exact List.mem_cons_self)
      exact Vector.getElem_set_ne _ _ apart

/-- A table overlaid with items has at an index the entry of the items where they agree on one. -/
theorem overlay_of_mem {items : List EditItem} {c : ClassIdx} {e : ClassEntry} (hm : .cls c e ∈ items)
    (hone : ∀ e', .cls c e' ∈ items → e' = e) (classes : Vector ClassEntry 32) : (overlay classes items)[c] = e := by
  induction items generalizing classes with
  | nil => cases hm
  | cons x items ih =>
    by_cases hlater : ∃ e', .cls c e' ∈ items
    · obtain ⟨e', he'⟩ := hlater
      obtain rfl := hone e' (List.mem_cons_of_mem _ he')
      exact ih he' (fun e'' h => hone e'' (List.mem_cons_of_mem _ h)) _
    · have head : x = .cls c e := ((List.mem_cons.1 hm).resolve_right fun h => hlater ⟨e, h⟩).symm
      refine (overlay_of_not_mem (fun e' h => hlater ⟨e', h⟩) _).trans ?_
      subst head
      exact Vector.getElem_set_self _

theorem hasDuplicateCode_iff (classes : Vector ClassEntry 32) : hasDuplicateCode classes = true ↔
    ∃ i j : ClassIdx, i ≠ j ∧ classes[i].code ≠ 0 ∧ classes[i].code = classes[j].code := by
  simp only [hasDuplicateCode, List.any_eq_true, List.mem_finRange, true_and, Bool.and_eq_true, bne_iff_ne, ne_eq, beq_iff_eq,
    and_assoc]

/-- The items of a CLASS write are those of its entries. -/
theorem mem_classItems {first : Nat} {es : List ClassEntry} {items : List EditItem} (hend : first + es.length ≤ 32)
    (hlen : items.length = es.length)
    (hitems : ∀ (k : Nat) (c : ClassIdx) (e : ClassEntry), c.val = first + k → es[k]? = some e → items[k]? = some (.cls c e))
    {c : ClassIdx} {e : ClassEntry} : .cls c e ∈ items ↔ ∃ k, es[k]? = some e ∧ c.val = first + k := by
  refine ⟨fun h => ?_, fun ⟨k, he, hc⟩ => List.mem_of_getElem? (hitems k c e hc he)⟩
  obtain ⟨k, hk, hx⟩ := List.mem_iff_getElem.1 h
  have hl : k < es.length := hlen ▸ hk
  have here := hitems k ⟨first + k, by omega⟩ es[k] rfl (List.getElem?_eq_getElem hl)
  rw [List.getElem?_eq_getElem hk, hx] at here
  obtain ⟨rfl, rfl⟩ := EditItem.cls.inj (Option.some.inj here)
  exact ⟨k, List.getElem?_eq_getElem hl, rfl⟩

/-- Settles O42: the table the write would leave is tested, then the items are staged or refused. -/
theorem classWriteIsStaged : Obligations.ClassWriteIsStaged := by
  unfold Obligations.ClassWriteIsStaged
  intro s f first es items left hne hend h hfits hlen hitems hwritten hkept hone
  obtain ⟨payload, count, fits⟩ := write_header (t := .cls) h.payload encodeClass_length hne hend (by omega) (by omega)
  have entry (c : ClassIdx) : (overlay (overlay s.mgt.classes s.mgt.edits) items)[c] = left[c] := by
    by_cases hc : ∃ e, .cls c e ∈ items
    · obtain ⟨e, he⟩ := hc
      have placed {e' : ClassEntry} (h : .cls c e' ∈ items) : left[c] = e' := hwritten c e' ((mem_classItems hend hlen hitems).1 h)
      rw [overlay_of_mem he fun e' he' => (placed he').symm.trans (placed he), placed he]
    · have outside : c.val < first ∨ first + es.length ≤ c.val := by
        by_contra hin
        push Not at hin
        have hk : c.val - first < es.length := by omega
        exact hc ⟨es[c.val - first], (mem_classItems hend hlen hitems).2
          ⟨c.val - first, List.getElem?_eq_getElem hk, by omega⟩⟩
      obtain ⟨edited, unedited⟩ := hkept c outside
      rw [overlay_of_not_mem fun e he => hc ⟨e, he⟩]
      by_cases hedit : ∃ e, .cls c e ∈ s.mgt.edits
      · obtain ⟨e, he⟩ := hedit
        rw [overlay_of_mem he (fun e' he' => hone c e' e he' he), edited e he]
      · rw [overlay_of_not_mem fun e he => hedit ⟨e, he⟩, unedited fun e he => hedit ⟨e, he⟩]
  have table : overlay (overlay s.mgt.classes s.mgt.edits) items = left := Vector.ext fun i hi => entry ⟨i, hi⟩
  have taken : takeWrite f.tag f.payload s =
      if classWriteDuplicates s items = true then refuse f.tag .duplicate s
      else if editsFit s.mgt.edits items = false then refuse f.tag .full s
      else applyIfStill (stage items (replyOk f.tag (entriesFrom s .cls first es.length) s)) := by
    rw [payload, takeWrite_cls]
    unfold takeClassWrite
    simp only [fits, writePayload_count, count, writePayload_first 3 _ _ (show first < 65536 by omega),
      classItems_eq hend hfits hlen hitems]
    exact if_neg nofun
  refine ⟨_, onRequest_of_arrives h.toArrives _, fun hdup => refuses_of_eq (cause := .duplicate) ?_, fun hapart => ?_⟩
  · have duplicate : classWriteDuplicates s items = true := by
      rw [classWriteDuplicates, table, hasDuplicateCode_iff]
      exact hdup
    exact taken.trans (if_pos duplicate)
  · have single : ¬ classWriteDuplicates s items = true := by
      rw [classWriteDuplicates, table, hasDuplicateCode_iff]
      exact fun ⟨i, j, hij, hcode, heq⟩ => hapart i j hij hcode heq
    exact staged_or_full (items_once (make := .cls) (place := Sum.inr) Sum.inr_injective (fun _ _ => rfl) hend hlen hitems)
      (taken.trans (if_neg single))

end Sys2Proof.Machine
end

section
/-! PROOFS. REVOKE-INSERT (06, 6.2 and 6.4): the seated parts it revokes (O50). -/

namespace Sys2Proof.Machine

/-! ### Work abandoned at a list of positions -/

theorem foldl_withoutEntry (left : Pos → Bool) (l : List Pos) (q : List Request) :
    l.foldl (fun q p => if left p = true then withoutEntry p q else q) q =
      q.filter (fun e => !(decide (e.position ∈ l) && left e.position)) := by
  induction l generalizing q with
  | nil => simp
  | cons p l ih =>
    rw [List.foldl_cons, ih]
    by_cases hp : left p = true
    · rw [if_pos hp, withoutEntry, List.filter_filter]
      refine List.filter_congr fun e _ => ?_
      by_cases he : e.position = p
      · simp [he, hp]
      · simp [he]
    · rw [if_neg hp]
      refine List.filter_congr fun e _ => ?_
      by_cases he : e.position = p
      · simp [he, hp]
      · simp [he]

/-- Acts that abandon the work of the positions of a test, over all positions. -/
theorem ActedAll.abandoned {acts : Pos → Act} {s t : State} (h : ActedAll (List.finRange 48) acts s t) {left : Pos → Bool}
    (hq : ∀ p q, (acts p).queue q = if left p = true then withoutEntry p q else q)
    (hr : ∀ p v, (acts p).records v = if left p = true then withoutRecord p v else v) :
    t.sch.queue = s.sch.queue.filter (fun e => !left e.position) ∧
      ∀ i : RecNo, t.sch.records[i] = s.sch.records[i].filter (fun r => !left r.position) := by
  refine ⟨?_, fun i => ?_⟩
  · rw [h.queue, List.foldl_ext _ _ _ fun q p _ => hq p q, foldl_withoutEntry]
    simp only [List.mem_finRange, decide_true, Bool.true_and]
  · rw [h.records, List.foldl_ext _ _ _ fun v p _ => hr p v, foldl_withoutRecord]
    simp only [List.mem_finRange, decide_true, Bool.true_and]

/-! ### The treatment of an affected position (R108) -/

theorem revocationHits_iff (e : Revocation) (r : Runtime) : revocationHits e r = true ↔ InsertHits e r := by
  unfold revocationHits InsertHits
  cases hid : r.identity with
  | none => simp
  | some id => simp [covers_iff, and_assoc]

/-- What an insert does at a position. -/
def insertAct (e : Revocation) (s : State) (p : Pos) : Act :=
  if revocationHits e s.run[p] = true then
    { run := revokedRuntime s.run[p], queue := withoutEntry p, records := withoutRecord p,
      notices := [noticeOf s p .revoked .revoked] }
  else { run := s.run[p] }

theorem revokePosition_acted {p : Pos} {s : State} (h : s.run[p].verdict ≠ .revoked) :
    Acted p { run := revokedRuntime s.run[p], queue := withoutEntry p, records := withoutRecord p,
              notices := [noticeOf s p .revoked .revoked] } s (revokePosition p s) := by
  have gone := abandon_acted p s
  have forcedNow := gone.before (force_acted p .revoked .revoked (abandon p s))
  rw [gone.run] at forcedNow
  refine (forcedNow.before (modRun_acted p (fun r => { r with phase := .held }) _)).congr ?_
  rw [forcedNow.run]
  have reported : report (abandon p s) p (abandonedRuntime s.run[p]).verdict .revoked
      (forced .revoked .revoked (abandonedRuntime s.run[p])) = [noticeOf s p .revoked .revoked] := by
    rw [report_congr gone.cycleCount]
    exact if_neg (Ne.symm h)
  unfold Act.before
  dsimp only
  rw [reported]
  rfl

theorem revokePosition_at (p : Pos) (s : State) : WorkAt p s (revokePosition p s) :=
  ((abandon_at p s).trans (force_at p .revoked .revoked _)).trans (modRun_at_of_score p _ _)

/-- Every position served once, in ascending order. -/
theorem serveAll_acted {f : Pos → State → State} {acts : Pos → Act} {s : State} (hat : ∀ p u, WorkAt p u (f p u))
    (hact : ∀ p u, SameAt p s u → u.fwd = s.fwd → Acted p (acts p) u (f p u)) :
    ActedAll (List.finRange 48) acts s (serveAll f s) := by
  unfold serveAll
  exact foldl_acted hat hact (List.nodup_finRange 48)

/-- The seated parts, each told against the state before the first is treated. -/
theorem revokeSeated_acted (e : Revocation) (s : State) : ActedAll (List.finRange 48) (insertAct e s) s (revokeSeated e s) := by
  refine serveAll_acted (fun p u => ?_) (fun p u same hfwd => ?_)
  · split
    · exact revokePosition_at p u
    · exact .refl p u
  · unfold insertAct
    rw [← same.run]
    split
    · next hhit =>
      have notice : noticeOf s p .revoked .revoked = noticeOf u p .revoked .revoked := by
        unfold noticeOf
        rw [same.run, hfwd]
      rw [notice]
      exact revokePosition_acted ((revocationHits_iff e _).1 hhit).2.1
    · exact .idle p u

/-- What the treatment leaves (R108). -/
theorem revokeSeated_leaves {e : Revocation} {s u : State} {hit : List Pos} (hu : revokeSeated e s = u)
    (hhit : ascending (fun p => revocationHits e s.run[p]) = hit) :
    (∀ p, p ∈ hit ↔ InsertHits e s.run[p]) ∧ (∀ p ∈ hit, u.run[p] = revokedRuntime s.run[p]) ∧
      (∀ p, p ∉ hit → u.run[p] = s.run[p]) ∧
      u.sch.queue = s.sch.queue.filter (fun x => decide (x.position ∉ hit)) ∧
      (∀ i : RecNo, u.sch.records[i] = s.sch.records[i].filter (fun r => decide (r.position ∉ hit))) ∧
      (u.mgt.notices, u.mgt.attention) = offered (hit.map (fun p => noticeOf s p .revoked .revoked)) s ∧
      OnlyPositionWork s u ∧ u.sightings = s.sightings := by
  have acted : ActedAll (List.finRange 48) (insertAct e s) s u := hu ▸ revokeSeated_acted e s
  have mem (p : Pos) : p ∈ hit ↔ revocationHits e s.run[p] = true := by
    rw [← hhit, ascending, List.mem_filter]
    exact and_iff_right (List.mem_finRange p)
  have outside (p : Pos) : decide (p ∉ hit) = !revocationHits e s.run[p] := by
    rw [Bool.eq_iff_iff, decide_eq_true_iff, mem, Bool.not_eq_true', Bool.not_eq_true]
  have run (p : Pos) : u.run[p] = (insertAct e s p).run := acted.run p (List.mem_finRange p)
  obtain ⟨queue, records⟩ := acted.abandoned (left := fun p => revocationHits e s.run[p])
    (fun p q => by unfold insertAct; split <;> rfl) (fun p v => by unfold insertAct; split <;> rfl)
  refine ⟨fun p => (mem p).trans (revocationHits_iff e _), fun p hp => ?_, fun p hp => ?_, ?_, fun i => ?_, ?_, acted.frame,
    acted.sightings_kept fun p => by unfold insertAct; split <;> rfl⟩
  · rw [run, insertAct, if_pos ((mem p).1 hp)]
  · rw [run, insertAct, if_neg (mt (mem p).2 hp)]
  · exact queue.trans (List.filter_congr fun x _ => (outside x.position).symm)
  · exact (records i).trans (congrArg (Option.filter · _) (funext fun r : Record => (outside r.position).symm))
  · have notices (p : Pos) : (insertAct e s p).notices =
        if revocationHits e s.run[p] = true then [noticeOf s p .revoked .revoked] else [] := by
      unfold insertAct
      split <;> rfl
    have all : (List.finRange 48).flatMap (fun p => (insertAct e s p).notices) =
        hit.map (fun p => noticeOf s p .revoked .revoked) := by
      rw [← hhit, ascending, ← flatMap_ite]
      exact List.flatMap_congr fun p _ => notices p
    exact acted.notices.trans (congrArg (offered · s) all)

/-! ### REVOKE-INSERT (R107) -/

theorem takeRevokeInsert_unfit {payload : Bytes} (h : UnfitRevocation payload) (tag : Byte) (s : State) :
    takeRevokeInsert tag payload s = refuse tag .range s := by
  unfold takeRevokeInsert
  obtain hlength | ⟨cls, lot, scope, serial, rfl, hrange⟩ := h
  · exact if_pos hlength
  · rw [decodeRevocation_unfit cls lot scope serial hrange, ite_self]

theorem takeRevokeInsert_entry {e : Revocation} (h0 : e.cls ≠ 0) (hF : e.cls ≠ 0xFFFF) (tag : Byte) (s : State) :
    takeRevokeInsert tag (encodeRevocation e) s =
      if s.revocations.contains e = true then refuse tag .duplicate s
      else if 512 ≤ s.revocations.length then refuse tag .full s
      else replyOk tag (be 2 (revocationIndex e s.revocations) ++ be 2 (s.revocations.length + 1) ++ be 1 (revokedCount e s))
        (revokeSeated e { s with revocations := insertRevocation e s.revocations }) := by
  unfold takeRevokeInsert
  rw [if_neg (not_not.2 (encodeRevocation_length e)), decodeRevocation_encode e h0 hF]
  exact rfl

theorem revokedCount_eq (e : Revocation) (s : State) :
    revokedCount e s = (ascending (fun p => revocationHits e s.run[p])).length := by
  rw [revokedCount, run_toList, List.countP_map, ascending, List.countP_eq_length_filter]
  rfl

/-- Settles O50: the tests in order, then the place of the entry and the treatment of the seated parts. -/
theorem revokeInsertRevokesSeatedParts : Obligations.RevokeInsertRevokesSeatedParts := by
  unfold Obligations.RevokeInsertRevokesSeatedParts
  refine ⟨fun s f e h h0 hF hascend => ⟨fun hin => ⟨_, onRequest_of_arrives h.toArrives _, ?_⟩,
    fun hout hfull => ⟨_, onRequest_of_arrives h.toArrives _, ?_⟩, fun hout hroom => ?_⟩,
    fun s f h hunfit => ⟨_, onRequest_of_arrives h _, refuses_of_eq (takeRevokeInsert_unfit hunfit _ _)⟩⟩
  · rw [h.payload, takeRevokeInsert_entry h0 hF]
    exact refuses_of_eq (cause := .duplicate) (if_pos (List.contains_iff_mem.2 hin))
  · rw [h.payload, takeRevokeInsert_entry h0 hF, if_neg (mt List.contains_iff_mem.1 hout)]
    exact refuses_of_eq (cause := .full) (if_pos hfull)
  · obtain ⟨mem, run, kept, queue, records, notices, frame, sightings⟩ :=
      revokeSeated_leaves (e := e) (s := { s with revocations := insertRevocation e s.revocations }) rfl rfl
    have revocations : (revokeSeated e { s with revocations := insertRevocation e s.revocations }).revocations =
        insertRevocation e s.revocations := by rw [frame]
    generalize hu : revokeSeated e { s with revocations := insertRevocation e s.revocations } = u at *
    refine ⟨_, u, s.revocations.takeWhile (fun x => x.before e), s.revocations.dropWhile (fun x => x.before e),
      ascending (fun p => revocationHits e s.run[p]), onRequest_of_arrives h.toArrives _, List.takeWhile_append_dropWhile.symm,
      ?_, ?_, (finRange_ascends 48).filter _, mem, ?_, fun p hp => ⟨run p hp, ?_⟩, kept, queue, fun i r hr => ?_, fun i hi => ?_,
      notices, ?_, sightings⟩
    · rw [revocations, insertRevocation, List.append_assoc]
      rfl
    · unfold RevocationsAscend
      rw [revocations]
      exact insertRevocation_ascends hout hascend
    · rw [h.payload, takeRevokeInsert_entry h0 hF, if_neg (mt List.contains_iff_mem.1 hout), if_neg (Nat.not_le.2 hroom), hu,
        revokedCount_eq]
      exact replyOk_answers _ _ _
    · refine ⟨fun x hx e => ?_, fun i r hr e => ?_⟩
      · rw [queue] at hx
        exact of_decide_eq_true (List.mem_filter.1 hx).2 (e ▸ hp)
      · rw [records] at hr
        exact of_decide_eq_true (Option.filter_eq_some_iff.1 hr).2 (e ▸ hp)
    · rw [records, show ({ s with revocations := insertRevocation e s.revocations } : State).sch.records[i] = some r from hr]
      by_cases hp : r.position ∈ ascending (fun p => revocationHits e s.run[p])
      · rw [if_pos hp]
        exact Option.filter_some_neg (by simpa using hp)
      · rw [if_neg hp]
        exact Option.filter_some_pos (by simpa using hp)
    · rw [records, show ({ s with revocations := insertRevocation e s.revocations } : State).sch.records[i] = none from hi]
      rfl
    · rw [revocations]
      exact frame

end Sys2Proof.Machine
end

section
/-! PROOFS. KEY-PROGRAM, KEY-ERASE and KEY-PROTECT (10, 10.3 to 10.5), and the challenges an erase abandons (O52). -/

namespace Sys2Proof.Machine

/-! ### The abandonment of an erase (R77) -/

/-- One of the listed record places holds a challenge of the position that captured a slot of the page. -/
def HitAmong (l : List RecNo) (s : State) (page : Fin 4) (p : Pos) : Prop :=
  ∃ i ∈ l, ∃ r, s.sch.records[i] = some r ∧ r.position = p ∧ capturedIn page r = true

/-- What an abandoned challenge leaves of its position. -/
def keylessRuntime (r : Runtime) : Runtime := { r with keyMissing := true, remaining := 0, phase := .held }

/-- What the abandonment of the listed record places leaves. -/
structure ErasedAmong (l : List RecNo) (page : Fin 4) (s u : State) : Prop where
  frame : u = { s with run := u.run, sch := { s.sch with records := u.sch.records } }
  hit : ∀ p, HitAmong l s page p → u.run[p] = keylessRuntime s.run[p]
  spared : ∀ p, ¬ HitAmong l s page p → u.run[p] = s.run[p]
  freed : ∀ i ∈ l, ∀ r, s.sch.records[i] = some r → capturedIn page r = true → u.sch.records[i] = none
  kept : ∀ i, (i ∈ l → ∀ r, s.sch.records[i] = some r → capturedIn page r = false) → u.sch.records[i] = s.sch.records[i]

theorem capturedIn_iff (page : Fin 4) (r : Record) :
    capturedIn page r = true ↔ ∃ nonce slot, r.query = .challenge nonce slot ∧ slot.val / 4 = page.val := by
  unfold capturedIn
  cases r.query with
  | ident => simp
  | challenge nonce slot =>
    rw [beq_iff_eq, pageOf_eq_iff]
    refine ⟨fun h => ⟨nonce, slot, rfl, h.symm⟩, fun ⟨_, _, h, hpage⟩ => ?_⟩
    cases h
    exact hpage.symm

theorem eraseRecord_kept {page : Fin 4} {i : RecNo} {s : State}
    (h : ∀ r, s.sch.records[i] = some r → capturedIn page r = false) : eraseRecord page i s = s := by
  unfold eraseRecord
  split
  · exact rfl
  · next r hr => exact if_neg (by rw [h r hr]; nofun)

theorem eraseRecord_captured {page : Fin 4} {i : RecNo} {s : State} {r : Record} (hr : s.sch.records[i] = some r)
    (hc : capturedIn page r = true) (hd : RecordsDistinct s) :
    Acted r.position { run := keylessRuntime s.run[r.position], records := fun v => v.set i.val none i.isLt } s
      (eraseRecord page i s) := by
  have erased : eraseRecord page i s =
      endRound r.position (modRun r.position (fun x => { x with keyMissing := true }) (setRecord i none s)) := by
    unfold eraseRecord
    rw [hr]
    exact if_pos hc
  rw [erased]
  exact ((setRecord_acted r.position i none s).before (modRun_acted r.position (fun x => { x with keyMissing := true }) _)).ended
    (withoutRecord_freed hd hr)

theorem foldl_erased {page : Fin 4} {l : List RecNo} (hl : l.Nodup) {s : State} (hd : RecordsDistinct s) :
    ErasedAmong l page s (l.foldl (fun t i => eraseRecord page i t) s) := by
  induction l generalizing s with
  | nil => exact ⟨rfl, fun p ⟨i, hi, _⟩ => absurd hi List.not_mem_nil, fun _ _ => rfl, nofun, fun _ _ => rfl⟩
  | cons i l ih =>
    obtain ⟨hi, hl⟩ := List.nodup_cons.1 hl
    have rest := ih hl ((eraseRecord_from page i s).distinct hd)
    rw [List.foldl_cons]
    by_cases hc : ∃ r, s.sch.records[i] = some r ∧ capturedIn page r = true
    case neg =>
      have none_hit (r : Record) (hr : s.sch.records[i] = some r) : capturedIn page r = false :=
        Bool.eq_false_iff.2 fun h => hc ⟨r, hr, h⟩
      rw [eraseRecord_kept none_hit] at rest ⊢
      have among (p : Pos) : HitAmong (i :: l) s page p ↔ HitAmong l s page p := by
        refine ⟨fun ⟨j, hj, r, hr, hp, h⟩ => ?_, fun ⟨j, hj, r⟩ => ⟨j, List.mem_cons_of_mem _ hj, r⟩⟩
        rcases List.mem_cons.1 hj with rfl | hj
        · rw [none_hit r hr] at h
          cases h
        · exact ⟨j, hj, r, hr, hp, h⟩
      refine ⟨rest.frame, fun p hp => rest.hit p ((among p).1 hp), fun p hp => rest.spared p (mt (among p).2 hp),
        fun j hj r hr h => ?_, fun j h => rest.kept j fun hj => h (List.mem_cons_of_mem _ hj)⟩
      rcases List.mem_cons.1 hj with rfl | hj
      · rw [none_hit r hr] at h
        cases h
      · exact rest.freed j hj r hr h
    case pos =>
      obtain ⟨x, hx, hxc⟩ := hc
      have acted := eraseRecord_captured hx hxc hd
      generalize eraseRecord page i s = v at rest acted ⊢
      have freed : v.sch.records[i] = none := by
        rw [acted.records]
        exact Vector.getElem_set_self i.isLt
      have others {j : RecNo} (hj : j ≠ i) : v.sch.records[j] = s.sch.records[j] := by
        rw [acted.records]
        exact Vector.getElem_set_ne i.isLt j.isLt fun e => hj (Fin.ext e.symm)
      have among (p : Pos) : HitAmong (i :: l) s page p ↔ p = x.position ∨ HitAmong l v page p := by
        refine ⟨fun ⟨j, hj, r, hr, hp, h⟩ => ?_, fun h => ?_⟩
        · rcases List.mem_cons.1 hj with rfl | hj
          · exact .inl (by rw [← hp, Option.some.inj (hr.symm.trans hx)])
          · exact .inr ⟨j, hj, r, (others fun e => hi (e ▸ hj)).trans hr, hp, h⟩
        · rcases h with rfl | ⟨j, hj, r, hr, hp, h⟩
          · exact ⟨i, List.mem_cons_self, x, hx, rfl, hxc⟩
          · exact ⟨j, List.mem_cons_of_mem _ hj, r, (others fun e => hi (e ▸ hj)).symm.trans hr, hp, h⟩
      have apart (p : Pos) (h : HitAmong l v page p) : p ≠ x.position := by
        obtain ⟨j, hj, r, hr, rfl, -⟩ := h
        have hji : j ≠ i := fun e => hi (e ▸ hj)
        exact fun e => hji (hd.apart j i r x ((others hji).symm.trans hr) hx (.inr e))
      refine ⟨?_, fun p hp => ?_, fun p hp => ?_, fun j hj r hr h => ?_, fun j h => ?_⟩
      · have first := acted.quiet rfl
        have sightings := acted.sightings
        rw [rest.frame, first, sightings]
        exact rfl
      · rcases (among p).1 hp with rfl | hp
        · rw [rest.spared _ fun h => apart _ h rfl]
          exact acted.run
        · rw [rest.hit p hp, acted.others p (apart p hp)]
      · obtain ⟨hne, hp⟩ := not_or.1 (mt (among p).2 hp)
        rw [rest.spared p hp, acted.others p hne]
      · rcases List.mem_cons.1 hj with rfl | hj
        · exact (rest.kept j fun hj => absurd hj hi).trans freed
        · exact rest.freed j hj r ((others fun e => hi (e ▸ hj)).trans hr) h
      · by_cases hji : j = i
        · subst hji
          exact absurd hxc (by rw [h List.mem_cons_self x hx]; nofun)
        · exact (rest.kept j fun hj r hr => h (List.mem_cons_of_mem _ hj) r ((others hji).symm.trans hr)).trans (others hji)

/-! ### The tests of the key requests (R181, R183, R185) -/

theorem busy_iff (k : KeyStore) : k.busy = true ↔ k.op ≠ .idle := by
  unfold KeyStore.busy
  split <;> simp_all

theorem isProtected_iff (k : KeyStore) (slot : SlotNo) : k.isProtected slot = true ↔ k.boundary ≤ slot.val := decide_eq_true_iff

theorem takeKeyProgram_entry (slot : SlotNo) (key : Key) (tag : Byte) (s : State) :
    takeKeyProgram tag ([BitVec.ofNat 8 slot.val] ++ be 16 key.toNat) s =
      if s.kst.isProtected slot = true then refuse tag .locked s
      else if s.kst.slots[slot] ≠ .blank then refuse tag .state s
      else if s.kst.busy = true then refuse tag .busy s
      else replyAccepted tag { s with kst := { s.kst with op := .programming slot key (s.now + 4) } } := by
  have named : fieldNat 0 1 ([BitVec.ofNat 8 slot.val] ++ be 16 key.toNat) = slot.val := by
    rw [fieldNat_one]
    show (BitVec.ofNat 8 slot.val).toNat = slot.val
    rw [BitVec.toNat_ofNat]
    omega
  have keyed : keyOf ([BitVec.ofNat 8 slot.val] ++ be 16 key.toNat) = key := by
    rw [keyOf, fieldNat_skip _ _ _ _ (by simp)]
    rw [show fieldNat (1 - [BitVec.ofNat 8 slot.val].length) 16 (be 16 key.toNat) = key.toNat from
      fieldNat_be_end 16 _ key.isLt]
    rw [BitVec.ofNat_toNat, BitVec.setWidth_eq]
  have length : ([BitVec.ofNat 8 slot.val] ++ be 16 key.toNat).length = 17 := by simp
  have inside : fieldNat 0 1 ([BitVec.ofNat 8 slot.val] ++ be 16 key.toNat) < 16 := named.trans_lt slot.isLt
  unfold takeKeyProgram
  rw [if_neg (not_not.2 length), dif_pos inside]
  dsimp only
  rw [keyed]
  generalize fieldNat 0 1 ([BitVec.ofNat 8 slot.val] ++ be 16 key.toNat) = n at named inside
  subst named
  exact rfl

theorem takeKeyProgram_unfit {payload : Bytes} (h : payload.length ≠ 17 ∨ 16 ≤ (payload.getD 0 0).toNat) (tag : Byte)
    (s : State) : takeKeyProgram tag payload s = refuse tag .range s := by
  unfold takeKeyProgram
  split
  · exact rfl
  · next hlen => exact dif_neg (by rw [fieldNat_one]; exact Nat.not_lt.2 (h.resolve_left hlen))

theorem takeKeyErase_page (page : Fin 4) (tag : Byte) (s : State) :
    takeKeyErase tag [BitVec.ofNat 8 page.val] s =
      if s.kst.isProtected (lastSlot page) = true then refuse tag .locked s
      else if s.kst.busy = true then refuse tag .busy s
      else replyAccepted tag (eraseAbandon page { s with kst := { s.kst with op := .erasing page (s.now + 20) } }) := by
  have named : oneByte [BitVec.ofNat 8 page.val] = some page.val := by
    show some (BitVec.ofNat 8 page.val).toNat = some page.val
    rw [BitVec.toNat_ofNat]
    congr 1
    omega
  unfold takeKeyErase
  rw [named]
  exact dif_pos page.isLt

theorem takeKeyErase_unfit {payload : Bytes} (h : payload.length ≠ 1 ∨ 4 ≤ (payload.getD 0 0).toNat) (tag : Byte) (s : State) :
    takeKeyErase tag payload s = refuse tag .range s := by
  by_cases hlen : payload.length = 1
  · obtain ⟨b, rfl⟩ := List.length_eq_one_iff.1 hlen
    exact dif_neg (Nat.not_lt.2 (h.resolve_left (not_not.2 hlen)))
  · unfold takeKeyErase
    rw [oneByte_of_length hlen]

theorem takeKeyProtect_unfit {payload : Bytes} (h : payload.length ≠ 1) (tag : Byte) (s : State) :
    takeKeyProtect tag payload s = refuse tag .range s := by
  unfold takeKeyProtect
  rw [oneByte_of_length h]

theorem takeKeyProtect_byte (b tag : Byte) (s : State) :
    takeKeyProtect tag [b] s =
      if 16 < b.toNat then refuse tag .range s
      else if s.kst.boundary ≤ b.toNat then refuse tag .locked s
      else if s.kst.busy = true then refuse tag .busy s
      else replyAccepted tag { s with kst := { s.kst with op := .protecting b.toNat (s.now + 4) } } := rfl

theorem eraseHits_iff (s : State) (page : Fin 4) (p : Pos) : EraseHits s page p ↔ HitAmong (List.finRange 4) s page p := by
  unfold EraseHits HitAmong
  simp only [capturedIn_iff]
  exact ⟨fun ⟨i, r, nonce, slot, hr, hp, hq, hs⟩ => ⟨i, List.mem_finRange i, r, hr, hp, nonce, slot, hq, hs⟩,
    fun ⟨i, _, r, hr, hp, nonce, slot, hq, hs⟩ => ⟨i, r, nonce, slot, hr, hp, hq, hs⟩⟩

/-- Settles O52: the tests of each request in order, the operation it starts, and the challenges an erase abandons. -/
theorem keyRequestsStartOperations : Obligations.KeyRequestsStartOperations := by
  unfold Obligations.KeyRequestsStartOperations
  refine fun s f => ⟨fun slot key h => ⟨_, onRequest_of_arrives h.toArrives _, ?_⟩,
    fun h hunfit => ⟨_, onRequest_of_arrives h _, refuses_of_eq (takeKeyProgram_unfit hunfit _ _)⟩,
    fun page h => ⟨_, eraseAbandon page { s with kst := { s.kst with op := .erasing page (s.now + 20) } },
      onRequest_of_arrives h.toArrives _, ?_⟩,
    fun h hunfit => ⟨_, onRequest_of_arrives h _, refuses_of_eq (takeKeyErase_unfit hunfit _ _)⟩,
    fun h hunfit => ⟨_, onRequest_of_arrives h _, refuses_of_eq (takeKeyProtect_unfit hunfit _ _)⟩,
    fun b h => ⟨_, onRequest_of_arrives h.toArrives _, ?_⟩⟩
  · rw [h.payload, takeKeyProgram_entry]
    simp only [isProtected_iff, busy_iff]
    refine ⟨fun hprot => refuses_of_eq (cause := .locked) (if_pos hprot), fun hprot hslot => ?_, fun hprot hslot hbusy => ?_,
      fun hprot hslot hidle => ?_⟩
    · rw [if_neg (Nat.not_le.2 hprot)]
      exact refuses_of_eq (cause := .state) (if_pos hslot)
    · rw [if_neg (Nat.not_le.2 hprot), if_neg (not_not.2 hslot)]
      exact refuses_of_eq (cause := .busy) (if_pos hbusy)
    · rw [if_neg (Nat.not_le.2 hprot), if_neg (not_not.2 hslot), if_neg (not_not.2 hidle)]
      exact reply_answers _ _ codeAccepted []
  · rw [h.payload, takeKeyErase_page]
    simp only [isProtected_iff, busy_iff, lastSlot]
    refine ⟨fun hprot => refuses_of_eq (cause := .locked) (if_pos hprot), fun hprot hbusy => ?_, fun hprot hidle hd => ?_⟩
    · rw [if_neg (Nat.not_le.2 hprot)]
      exact refuses_of_eq (cause := .busy) (if_pos hbusy)
    · have erased : ErasedAmong (List.finRange 4) page { s with kst := { s.kst with op := .erasing page (s.now + 20) } } _ :=
        foldl_erased (List.nodup_finRange 4) (RecordsDistinct.mk hd.apart hd.tags)
      rw [if_neg (Nat.not_le.2 hprot), if_neg (not_not.2 hidle)]
      refine ⟨reply_answers _ _ codeAccepted [], erased.frame, fun p hp => erased.hit p ((eraseHits_iff s page p).1 hp),
        fun p hp => erased.spared p (mt (eraseHits_iff s page p).2 hp), fun i r hr => ⟨fun hhit => ?_, fun hhit => ?_⟩⟩
      · obtain ⟨j, x, nonce, slot, hx, hp, hq, hslot⟩ := hhit
        obtain rfl := hd.apart i j r x hr hx (.inr hp.symm)
        exact erased.freed i (List.mem_finRange i) x hx ((capturedIn_iff page x).2 ⟨nonce, slot, hq, hslot⟩)
      · refine (erased.kept i fun _ x hx => Bool.eq_false_iff.2 fun hc => hhit ?_).trans hr
        obtain rfl := Option.some.inj (hr.symm.trans hx)
        exact (eraseHits_iff s page r.position).2 ⟨i, List.mem_finRange i, r, hr, rfl, hc⟩
  · rw [h.payload, takeKeyProtect_byte]
    simp only [busy_iff]
    refine ⟨fun hout => refuses_of_eq (cause := .range) (if_pos hout), fun hin hprot => ?_, fun hin hprot hbusy => ?_,
      fun hin hprot hidle => ?_⟩
    · rw [if_neg (Nat.not_lt.2 hin)]
      exact refuses_of_eq (cause := .locked) (if_pos hprot)
    · rw [if_neg (Nat.not_lt.2 hin), if_neg (Nat.not_le.2 hprot)]
      exact refuses_of_eq (cause := .busy) (if_pos hbusy)
    · rw [if_neg (Nat.not_lt.2 hin), if_neg (Nat.not_le.2 hprot), if_neg (not_not.2 hidle)]
      exact reply_answers _ _ codeAccepted []

end Sys2Proof.Machine
end

section
/-! PROOFS. The verifications of a key store completion: what they free, what they keep, and their order (R79). -/

namespace Sys2Proof.Machine

/-! ### KEY-DONE stands -/

theorem addNotice_keyDone (n : Notice) (s : State) : (addNotice n s).mgt.attention.keyDone = s.mgt.attention.keyDone := by
  unfold addNotice
  dsimp only
  split
  · split <;> rfl
  · rfl

theorem notifyChange_keyDone (p : Pos) (before : Verdict) (reason : Reason) (s : State) :
    (notifyChange p before reason s).mgt.attention.keyDone = s.mgt.attention.keyDone := by
  unfold notifyChange
  dsimp only
  split
  · rfl
  · exact addNotice_keyDone _ s

theorem callDue_attention (p : Pos) (round : RoundKind) (s : State) : (callDue p round s).mgt.attention = s.mgt.attention := by
  unfold callDue ask
  dsimp only
  split <;> rfl

theorem force_keyDone (p : Pos) (v : Verdict) (reason : Reason) (s : State) :
    (force p v reason s).mgt.attention.keyDone = s.mgt.attention.keyDone := notifyChange_keyDone _ _ _ _

theorem evaluate_keyDone (p : Pos) (reason : Reason) (s : State) :
    (evaluate p reason s).mgt.attention.keyDone = s.mgt.attention.keyDone := by
  unfold evaluate
  dsimp only
  split
  · rfl
  · split
    · rfl
    · split
      · rw [callDue_attention]
        exact notifyChange_keyDone _ _ _ _
      · exact notifyChange_keyDone _ _ _ _

theorem failAnswer_keyDone (p : Pos) (e : ClassEntry) (s : State) :
    (failAnswer p e s).mgt.attention.keyDone = s.mgt.attention.keyDone := by
  unfold failAnswer
  dsimp only
  split
  · exact force_keyDone _ _ _ _
  · exact evaluate_keyDone _ _ _

theorem passAnswer_keyDone (p : Pos) (e : ClassEntry) (o : Word32) (s : State) :
    (passAnswer p e o s).mgt.attention.keyDone = s.mgt.attention.keyDone := by
  unfold passAnswer
  dsimp only
  split
  · exact force_keyDone _ _ _ _
  · exact evaluate_keyDone _ _ _
  · exact evaluate_keyDone _ _ _

theorem verify_keyDone (i : RecNo) (rec : Record) (nonce : Nonce) (slot : SlotNo) (odo response : Word32) (s : State) :
    (verify i rec nonce slot odo response s).mgt.attention.keyDone = s.mgt.attention.keyDone := by
  unfold verify
  dsimp only
  split
  · rfl
  · rfl
  · split
    · split
      · split
        · exact passAnswer_keyDone _ _ _ _
        · exact passAnswer_keyDone _ _ _ _
      · split
        · exact failAnswer_keyDone _ _ _
        · exact failAnswer_keyDone _ _ _
    · rfl
    · rfl
    · rfl

theorem verifyWaiting_keyDone (i : RecNo) (s : State) :
    (verifyWaiting i s).mgt.attention.keyDone = s.mgt.attention.keyDone := by
  unfold verifyWaiting
  split
  · rfl
  · split
    · exact verify_keyDone _ _ _ _ _ _ _
    · rfl
    · rfl
    · rfl

theorem verifyAll_keyDone (s : State) : (verifyAll s).mgt.attention.keyDone = s.mgt.attention.keyDone := by
  unfold verifyAll
  generalize recordsBy (arrivalOrder s) = l
  induction l generalizing s with
  | nil => rfl
  | cons i l ih => exact (ih _).trans (verifyWaiting_keyDone i s)

/-! ### The records -/

/-- Records are freed, and the others stand. -/
def OnlyFreed (s t : State) : Prop := ∀ (i : RecNo) (r : Record), t.sch.records[i] = some r → s.sch.records[i] = some r

namespace OnlyFreed

theorem of_eq {s t : State} (h : t.sch.records = s.sch.records) : OnlyFreed s t := fun i r hr => by rwa [h] at hr

theorem trans {s t u : State} (h : OnlyFreed s t) (k : OnlyFreed t u) : OnlyFreed s u := fun i r hr => h i r (k i r hr)

theorem endRound (p : Pos) (s : State) : OnlyFreed s (endRound p s) := by
  intro i r hr
  rw [(endRound_acted p s).records, withoutRecord_getElem] at hr
  exact (Option.filter_eq_some_iff.1 hr).1

theorem distinct {s t : State} (h : OnlyFreed s t) (hd : RecordsDistinct s) : RecordsDistinct t :=
  RecordsFrom.distinct (fun i r hr => ⟨r, h i r hr, rfl, rfl⟩) hd

end OnlyFreed

/-- A verification frees its record, and no other record is filled or changed. -/
theorem verify_freed (i : RecNo) (rec : Record) (nonce : Nonce) (slot : SlotNo) (odo response : Word32) (s : State) :
    OnlyFreed (setRecord i none s) (verify i rec nonce slot odo response s) := by
  have ended (t : State) (h : t.sch.records = (setRecord i none s).sch.records) :
      OnlyFreed (setRecord i none s) (endRound rec.position t) := (OnlyFreed.of_eq h).trans (.endRound _ t)
  unfold verify
  dsimp only
  split
  · exact (ended _ rfl).trans (.of_eq rfl)
  · exact (ended _ rfl).trans (.of_eq rfl)
  · split
    · split
      · split
        · exact ended _ (passAnswer_records _ _ _ _)
        · exact .of_eq (passAnswer_records _ _ _ _)
      · split
        · exact ended _ (failAnswer_records _ _ _)
        · exact .of_eq (failAnswer_records _ _ _)
    · exact ended _ rfl
    · exact ended _ rfl
    · exact ended _ rfl

theorem setRecord_none_left {i j : RecNo} {r : Record} {s : State} (h : (setRecord i none s).sch.records[j] = some r) :
    j ≠ i ∧ s.sch.records[j] = some r := by
  by_cases hj : j = i
  · subst hj
    rw [show (setRecord j none s).sch.records[j] = none from Vector.getElem_set_self j.isLt] at h
    cases h
  · exact ⟨hj, (Vector.getElem_set_ne i.isLt j.isLt fun e => hj (Fin.ext e.symm)).symm.trans h⟩

theorem verifyWaiting_freed (i : RecNo) (s : State) : OnlyFreed s (verifyWaiting i s) := by
  unfold verifyWaiting
  split
  · exact .of_eq rfl
  · split
    · exact fun j r hr => (setRecord_none_left (verify_freed _ _ _ _ _ _ _ j r hr)).2
    · exact .of_eq rfl
    · exact .of_eq rfl
    · exact .of_eq rfl

theorem verifyWaiting_of_awaiting {i : RecNo} {s : State} {rec : Record} {nonce : Nonce} {slot : SlotNo} {odo response : Word32}
    {n : Nat} (hr : s.sch.records[i] = some rec) (hq : rec.query = .challenge nonce slot)
    (hs : rec.state = .awaitingKey odo response n) : verifyWaiting i s = verify i rec nonce slot odo response s := by
  unfold verifyWaiting
  simp only [hr, hs, hq]

/-- A challenge that waited for the key store waits no more once it is verified. -/
theorem verifyWaiting_verified {i : RecNo} {s : State} {r : Record} {nonce : Nonce} {slot : SlotNo} {odo response : Word32}
    {n : Nat} (hr : (verifyWaiting i s).sch.records[i] = some r) (hq : r.query = .challenge nonce slot) :
    r.state ≠ .awaitingKey odo response n := by
  intro hs
  rw [verifyWaiting_of_awaiting (verifyWaiting_freed i s i r hr) hq hs] at hr
  exact (setRecord_none_left (verify_freed _ _ _ _ _ _ _ i r hr)).1 rfl

theorem foldl_freed (l : List RecNo) (s : State) : OnlyFreed s (l.foldl (fun t i => verifyWaiting i t) s) := by
  induction l generalizing s with
  | nil => exact .of_eq rfl
  | cons i l ih => exact (verifyWaiting_freed i s).trans (ih _)

theorem verifyAll_freed (s : State) : OnlyFreed s (verifyAll s) := foldl_freed _ s

theorem foldl_verified {l : List RecNo} {s : State} {i : RecNo} (hi : i ∈ l) {r : Record} {nonce : Nonce} {slot : SlotNo}
    (hr : (l.foldl (fun t i => verifyWaiting i t) s).sch.records[i] = some r) (hq : r.query = .challenge nonce slot)
    (odo response : Word32) (n : Nat) : r.state ≠ .awaitingKey odo response n := by
  induction l generalizing s with
  | nil => cases hi
  | cons j l ih =>
    rcases List.mem_cons.1 hi with rfl | hi
    · exact verifyWaiting_verified (foldl_freed l _ i r hr) hq
    · exact ih hi hr

/-- After the verifications no challenge waits for the key store (R79). -/
theorem verifyAll_none_awaits {s : State} {i : RecNo} {r : Record} {nonce : Nonce} {slot : SlotNo}
    (hr : (verifyAll s).sch.records[i] = some r) (hq : r.query = .challenge nonce slot) : ¬ ∃ n, AwaitingKey (verifyAll s) i n := by
  rintro ⟨n, x, odo, response, hx, hs⟩
  obtain rfl := Option.some.inj (hr.symm.trans hx)
  have waited : AwaitingKey s i n := ⟨r, odo, response, verifyAll_freed s i r hr, hs⟩
  exact foldl_verified ((mem_recordsBy _ i).2 ⟨n, (arrivalOrder_iff s i n).2 waited⟩) hr hq odo response n hs

/-! ### The order of the verifications -/

theorem verifyWaiting_held {s : State} (hd : RecordsDistinct s) (i : RecNo) : HeldAnswerVerified i s (verifyWaiting i s) := by
  intro rec nonce slot odo response n hr hq hs
  rw [verifyWaiting_of_awaiting hr hq hs]
  exact ⟨verify_keyless hd hr, fun key id e hkey hp hid hcls => verify_judged hd hr hkey hp hid hcls⟩

theorem verifyAll_inOrder {s : State} (hd : RecordsDistinct s) : VerifiedInOrder s (verifyAll s) := by
  refine ⟨recordsBy (arrivalOrder s), recordsBy_nodup _, fun i => ?_, (recordsBy_sorted _).imp fun {i j} h n m hn hm => ?_, ?_⟩
  · rw [mem_recordsBy]
    exact exists_congr fun n => arrivalOrder_iff s i n
  · rwa [(arrivalOrder_iff s i n).2 hn, (arrivalOrder_iff s j m).2 hm] at h
  · unfold verifyAll
    generalize recordsBy (arrivalOrder s) = l
    induction l generalizing s with
    | nil => exact rfl
    | cons i l ih => exact ⟨_, verifyWaiting_held hd i, ih ((verifyWaiting_freed i s).distinct hd)⟩

theorem verifyAll_idle {s : State} (h : NoneAwaits s) : verifyAll s = s := by
  have none : recordsBy (arrivalOrder s) = [] := List.eq_nil_iff_forall_not_mem.2 fun i hi => by
    obtain ⟨n, hn⟩ := (mem_recordsBy _ i).1 hi
    exact h i n ((arrivalOrder_iff s i n).1 hn)
  unfold verifyAll
  rw [none]
  exact List.foldl_nil

end Sys2Proof.Machine
end

section
/-! PROOFS. The completions of the key operations (10, 10.3 to 10.6), with the positions a program serves (O53). -/

namespace Sys2Proof.Machine

/-! ### A pending epoch update starts (R182, R184 to R186) -/

theorem startPending_slots (now : Nat) (k : KeyStore) : (k.startPending now).slots = k.slots := by
  unfold KeyStore.startPending
  split <;> rfl

theorem startPending_boundary (now : Nat) (k : KeyStore) : (k.startPending now).boundary = k.boundary := by
  unfold KeyStore.startPending
  split <;> rfl

theorem startPending_lastResult (now : Nat) (k : KeyStore) : (k.startPending now).lastResult = k.lastResult := by
  unfold KeyStore.startPending
  split <;> rfl

theorem startPending_epoch (now : Nat) (k : KeyStore) : (k.startPending now).epoch = k.epoch := by
  unfold KeyStore.startPending
  split <;> rfl

theorem startPending_over (now : Nat) (k : KeyStore) : (k.startPending now).epochPending = false := by
  unfold KeyStore.startPending
  split
  · rfl
  · next h => exact Bool.eq_false_iff.2 h

theorem startPending_op {k : KeyStore} (h : k.op = .idle) (now : Nat) :
    (k.startPending now).op = if k.epochPending = true then .epochUpdate (now + 4) else .idle := by
  unfold KeyStore.startPending
  split
  · rfl
  · exact h

theorem startPendingEpoch_served {u w : State} (h : w = { u with run := w.run, sch := { u.sch with queue := w.sch.queue } }) :
    startPendingEpoch w = { u with
      run := (startPendingEpoch w).run, sch := { u.sch with queue := (startPendingEpoch w).sch.queue },
      kst := (startPendingEpoch w).kst } := by
  have after : startPendingEpoch w = { w with kst := (startPendingEpoch w).kst } := rfl
  generalize (startPendingEpoch w).kst = k at after
  rw [after]
  exact congrArg (fun x : State => { x with kst := k }) h

/-! ### What the array work of a completion leaves, and what follows it -/

/-- The part after the array work: KST with its new contents, KEY-DONE latched. -/
def arrayDone (s : State) (k : KeyStore) : State := latchKeyDone { s with kst := k }

section

variable {s w : State} {k : KeyStore} (hop : k.op = .idle) (hpending : k.epochPending = s.kst.epochPending)
  (hw : w = { verifyAll (arrayDone s k) with run := w.run, sch := { (verifyAll (arrayDone s k)).sch with queue := w.sch.queue } })

include hw

theorem served_kst : w.kst = k := by
  rw [hw]
  exact (verifyAll_work _).kst

theorem served_now : w.now = s.now := by
  rw [hw]
  exact (verifyAll_work _).now

theorem completed_kst : (startPendingEpoch w).kst = k.startPending s.now := by
  unfold startPendingEpoch
  rw [served_kst hw, served_now hw]

include hop hpending

theorem completed_over (hepoch : k.epoch = s.kst.epoch) : OperationOver s (startPendingEpoch w) := by
  have kst := completed_kst hw
  have records : w.sch.records = (verifyAll (arrayDone s k)).sch.records := by rw [hw]
  refine ⟨?_, ?_, ?_, ?_, fun i r nonce slot hr hq => ?_, ?_⟩
  · rw [kst, startPending_op hop, hpending]
  · rw [kst]
    exact startPending_over _ k
  · rw [kst, startPending_epoch, hepoch]
  · show w.mgt.attention.keyDone = true
    rw [hw]
    exact verifyAll_keyDone _
  · have none := verifyAll_none_awaits (records ▸ hr) hq
    rintro ⟨n, x, odo, response, hx, hs⟩
    exact none ⟨n, x, odo, response, records ▸ hx, hs⟩
  · have frame := (verifyAll_work (arrayDone s k)).frame
    unfold startPendingEpoch
    conv_lhs => rw [hw, frame]
    have sightings : w.sightings = (verifyAll (arrayDone s k)).sightings := by rw [hw]
    have mgt : w.mgt = (verifyAll (arrayDone s k)).mgt := by rw [hw]
    dsimp only
    rw [records, sightings, mgt]
    rw [served_kst hw, served_now hw]
    exact rfl

theorem completed_operationDone : operationDone s (startPendingEpoch w).kst = arrayDone s k := by
  rw [completed_kst hw]
  have : ({ k.startPending s.now with op := .idle, epochPending := s.kst.epochPending } : KeyStore) = k := by
    rw [← hpending, ← hop]
    unfold KeyStore.startPending
    split <;> rfl
  unfold operationDone arrayDone
  rw [this]
  exact rfl

theorem completed_verified (hd : RecordsDistinct s) :
    VerifiedInOrder (operationDone s (startPendingEpoch w).kst) (verifyAll (arrayDone s k)) :=
  (completed_operationDone hop hpending hw).symm ▸ verifyAll_inOrder (RecordsDistinct.mk hd.apart hd.tags)

theorem completed_unawaited (h : NoneAwaits s) :
    verifyAll (arrayDone s k) = operationDone s (startPendingEpoch w).kst :=
  (completed_operationDone hop hpending hw).symm ▸ verifyAll_idle (s := arrayDone s k) h

end

/-- A completion that serves no position: erase, and change of the boundary. -/
theorem completed_unserved {s t : State} {k : KeyStore} (hop : k.op = .idle) (hpending : k.epochPending = s.kst.epochPending)
    (hepoch : k.epoch = s.kst.epoch) (ht : startPendingEpoch (verifyAll (arrayDone s k)) = t) :
    OperationOver s t ∧ t.kst = k.startPending s.now ∧
      (RecordsDistinct s → ∃ u, VerifiedInOrder (operationDone s t.kst) u ∧ t = { u with kst := t.kst }) := by
  have served (u : State) : u = { u with run := u.run, sch := { u.sch with queue := u.sch.queue } } := rfl
  have standing (u : State) : startPendingEpoch u = { u with kst := (startPendingEpoch u).kst } := rfl
  subst ht
  exact ⟨completed_over hop hpending (served _) hepoch, completed_kst (served _),
    fun hd => ⟨_, completed_verified hop hpending (served _) hd, standing _⟩⟩

/-! ### The key_missing positions of a programmed slot (R182, step 4) -/

theorem keyMissingOf_eq (slot : SlotNo) (s : State) (p : Pos) : keyMissingOf slot s p = keyServed s slot p := by
  unfold keyMissingOf keyServed
  dsimp only
  generalize s.run[p] = r
  cases classOf s r <;> simp [Bool.decide_and, beq_eq_decide]

/-- The runtime half of a served position with its flag cleared. -/
def keyFound (r : Runtime) : Runtime := { r with keyMissing := false }

/-- What the end of a program does at a position. -/
def servedAct (slot : SlotNo) (s : State) (p : Pos) : Act :=
  if keyServed s slot p = true then
    if s.run[p].latch = true then { run := keyFound s.run[p] }
    else { run := calledRuntime (free s p) .due .due (keyFound s.run[p]), queue := askQueue (free s p) p .due }
  else { run := s.run[p] }

theorem serveKeyMissing_acted (p : Pos) (s : State) :
    Acted p (if s.run[p].latch = true then { run := keyFound s.run[p] }
      else { run := calledRuntime (free s p) .due .due (keyFound s.run[p]), queue := askQueue (free s p) p .due }) s
      (serveKeyMissing p s) := by
  have cleared := modRun_acted p keyFound s
  unfold serveKeyMissing
  dsimp only
  split
  · exact cleared
  · refine (cleared.before (callDue_acted p .due _)).congr ?_
    rw [modRun_self]
    exact rfl

theorem serveKeyMissing_at (p : Pos) (s : State) : WorkAt p s (serveKeyMissing p s) := by
  unfold serveKeyMissing
  dsimp only
  split
  · exact modRun_at_of_score p _ s
  · exact (modRun_at_of_score p _ s).trans (callDue_at _ _ _)

theorem serveSlot_acted (slot : SlotNo) (s : State) : ActedAll (List.finRange 48) (servedAct slot s) s (serveSlot slot s) := by
  refine serveAll_acted (fun p u => ?_) (fun p u same _ => ?_)
  · split
    · exact serveKeyMissing_at p u
    · exact .refl p u
  · have served : keyMissingOf slot u p = keyServed s slot p := by
      rw [keyMissingOf_eq, keyServed, keyServed, same.run, classOf_congr same.classes]
    unfold servedAct
    rw [served, ← same.run, ← same.free_eq]
    split
    · exact serveKeyMissing_acted p u
    · exact .idle p u

/-- Acts that touch runtime halves and the queue alone. -/
theorem ActedAll.quiet {l : List Pos} {acts : Pos → Act} {s t : State} (h : ActedAll l acts s t) (hr : ∀ p, (acts p).records = id)
    (hs : ∀ p, (acts p).sightings = id) (hn : ∀ p, (acts p).notices = []) :
    t = { s with run := t.run, sch := { s.sch with queue := t.sch.queue } } := by
  have notices : (t.mgt.notices, t.mgt.attention) = (s.mgt.notices, s.mgt.attention) :=
    h.notices.trans (congrArg (offered · s) (List.flatMap_eq_nil_iff.2 fun p _ => hn p))
  obtain ⟨noticesKept, attentionKept⟩ := Prod.mk.inj notices
  have frame := h.frame
  unfold OnlyPositionWork at frame
  rw [h.records_kept hr, h.sightings_kept hs, noticesKept, attentionKept] at frame
  exact frame

/-- What the serving leaves (R182). -/
theorem serveSlot_leaves {slot : SlotNo} {u w : State} (hw : serveSlot slot u = w) :
    w = { u with run := w.run, sch := { u.sch with queue := w.sch.queue } } ∧
    (∀ p : Pos, (keyServed u slot p = false → w.run[p] = u.run[p]) ∧
      (keyServed u slot p = true → u.run[p].latch = true → w.run[p] = { u.run[p] with keyMissing := false }) ∧
      (keyServed u slot p = true → u.run[p].latch = false → Unasked u p → w.run[p] = { u.run[p] with
        keyMissing := false, phase := .challenging, sweepAge := 0, pendingRequest := some .due, roundKind := .due })) ∧
    ((∀ p, keyServed u slot p = true → u.run[p].latch = false → Unasked u p) →
      w.sch.queue = u.sch.queue ++ (ascending (fun p => keyServed u slot p && !u.run[p].latch)).map
        (fun p => { position := p, kind := .due })) := by
  have acted : ActedAll (List.finRange 48) (servedAct slot u) u w := hw ▸ serveSlot_acted slot u
  have run (p : Pos) : w.run[p] = (servedAct slot u p).run := acted.run p (List.mem_finRange p)
  have quiet (p : Pos) : (servedAct slot u p).records = id ∧ (servedAct slot u p).sightings = id ∧
      (servedAct slot u p).notices = [] := by
    unfold servedAct
    split
    · split <;> exact ⟨rfl, rfl, rfl⟩
    · exact ⟨rfl, rfl, rfl⟩
  refine ⟨?_, fun p => ⟨fun h => ?_, fun h hl => ?_, fun h hl hu => ?_⟩, fun hfree => ?_⟩
  · exact acted.quiet (fun p => (quiet p).1) (fun p => (quiet p).2.1) fun p => (quiet p).2.2
  · rw [run, servedAct, h]
    exact congrArg Act.run (if_neg Bool.false_ne_true)
  · rw [run, servedAct, if_pos h, if_pos hl]
    exact rfl
  · rw [run, servedAct, if_pos h, hl, (free_iff u p).2 hu]
    exact rfl
  · rw [acted.queue, ascending, ← foldl_due]
    refine List.foldl_ext _ _ _ fun q p _ => ?_
    unfold servedAct
    by_cases h : keyServed u slot p = true
    · by_cases hl : u.run[p].latch = true
      · rw [if_pos h, if_pos hl, h, hl]
        exact rfl
      · have hl := Bool.eq_false_iff.2 hl
        rw [if_pos h, hl, h, (free_iff u p).2 (hfree p h hl)]
        exact rfl
    · rw [if_neg h, Bool.eq_false_iff.2 h]
      exact rfl

/-! ### The completions -/

/-- What a program leaves of the array (R182). -/
def programDone (agrees : Bool) (slot : SlotNo) (key : Key) (k : KeyStore) : KeyStore :=
  { k with
    slots := k.slots.set slot.val (if agrees then .programmed key else .faulty) slot.isLt
    lastResult := if agrees then .programmed else .programFaulty
    op := .idle }

/-- What an erase leaves of the array (R184). -/
def eraseDone (checks : Vector Bool 4) (page : Fin 4) (k : KeyStore) : KeyStore :=
  { k with
    slots := setPage page (fun i => if checks[i] then .blank else .faulty) k.slots
    lastResult := if checks.toList.all id then .erased else .eraseFaulty
    op := .idle }

theorem eraseDone_op (checks : Vector Bool 4) (page : Fin 4) (k : KeyStore) : (eraseDone checks page k).op = .idle := by
  simp only [eraseDone]

theorem eraseDone_boundary (checks : Vector Bool 4) (page : Fin 4) (k : KeyStore) :
    (eraseDone checks page k).boundary = k.boundary := by simp only [eraseDone]

theorem eraseDone_epoch (checks : Vector Bool 4) (page : Fin 4) (k : KeyStore) :
    (eraseDone checks page k).epoch = k.epoch := by simp only [eraseDone]

theorem eraseDone_epochPending (checks : Vector Bool 4) (page : Fin 4) (k : KeyStore) :
    (eraseDone checks page k).epochPending = k.epochPending := by simp only [eraseDone]

/-- What a change of the boundary leaves of KST (R185). -/
def protectDone (boundary : Nat) (k : KeyStore) : KeyStore := { k with boundary, lastResult := .protectDone, op := .idle }

/-- The part at the end of a program: the waiting answers verified, and the positions of the slot served. -/
def programServed (agrees : Bool) (slot : SlotNo) (key : Key) (s : State) : State :=
  if agrees then serveSlot slot (verifyAll (arrayDone s (programDone agrees slot key s.kst)))
  else verifyAll (arrayDone s (programDone agrees slot key s.kst))

theorem completeProgram_eq (agrees : Bool) (slot : SlotNo) (key : Key) (s : State) :
    completeProgram agrees slot key s = startPendingEpoch (programServed agrees slot key s) := rfl

theorem completeErase_eq (checks : Vector Bool 4) (page : Fin 4) (s : State) :
    completeErase checks page s = startPendingEpoch (verifyAll (arrayDone s (eraseDone checks page s.kst))) := rfl

theorem completeProtect_eq (b : Nat) (s : State) :
    completeProtect b s = startPendingEpoch (verifyAll (arrayDone s (protectDone b s.kst))) := rfl

theorem programServed_true (slot : SlotNo) (key : Key) (s : State) :
    programServed true slot key s = serveSlot slot (verifyAll (arrayDone s (programDone true slot key s.kst))) := if_pos rfl

theorem programServed_served {agrees : Bool} {slot : SlotNo} {key : Key} {s u w : State}
    (hu : verifyAll (arrayDone s (programDone agrees slot key s.kst)) = u) (hw : programServed agrees slot key s = w) :
    w = { u with run := w.run, sch := { u.sch with queue := w.sch.queue } } := by
  unfold programServed at hw
  rw [hu] at hw
  cases agrees with
  | false =>
    rw [if_neg Bool.false_ne_true] at hw
    rw [← hw]
  | true =>
    rw [if_pos rfl] at hw
    exact (serveSlot_leaves hw).1

theorem checks_all {checks : Vector Bool 4} : checks.toList.all id = true ↔ ∀ i : Fin 4, checks[i] = true := by
  rw [List.all_eq_true]
  simp only [Vector.mem_toList_iff, id, Vector.mem_iff_getElem, forall_exists_index]
  exact ⟨fun h i => h _ i.val i.isLt rfl, fun h x i hi hx => hx ▸ h ⟨i, hi⟩⟩

theorem eraseDone_slots (checks : Vector Bool 4) (page : Fin 4) (k : KeyStore) (i : SlotNo) (j : Fin 4)
    (h : i.val = 4 * page.val + j.val) : (eraseDone checks page k).slots[i] = if checks[j] then .blank else .faulty := by
  have inPage : pageOf i = page := (pageOf_eq_iff i page).2 (by omega)
  have place : (⟨i.val % 4, by omega⟩ : Fin 4) = j := Fin.ext (by show i.val % 4 = j.val; omega)
  rw [eraseDone, setPage_getElem, if_pos inPage, place]

/-! ### The rows of the completions -/

theorem programCompletion_due (agrees : Bool) {s : State} {slot : SlotNo} {key : Key} {due : Nat} (hlive : s.live = true)
    (hop : s.kst.op = .programming slot key due) (hdue : due ≤ s.now) :
    exec (.programCompletion agrees) s = .next (completeProgram agrees slot key s) := by
  show execProgramCompletion agrees s = _
  refine (whenLive_of_live hlive _).trans (congrArg _ ?_)
  rw [hop]
  exact if_pos hdue

theorem programCompletion_early (agrees : Bool) {s : State} (h : ∀ slot key due, s.kst.op = .programming slot key due → s.now < due) :
    exec (.programCompletion agrees) s = .next s := by
  show execProgramCompletion agrees s = .next s
  refine whenLive_of_fixed ?_
  split
  · next slot key due hop => exact if_neg (Nat.not_le.2 (h slot key due hop))
  all_goals exact rfl

theorem eraseCompletion_due (checks : Vector Bool 4) {s : State} {page : Fin 4} {due : Nat} (hlive : s.live = true)
    (hop : s.kst.op = .erasing page due) (hdue : due ≤ s.now) :
    exec (.eraseCompletion checks) s = .next (completeErase checks page s) := by
  show execEraseCompletion checks s = _
  refine (whenLive_of_live hlive _).trans (congrArg _ ?_)
  rw [hop]
  exact if_pos hdue

theorem eraseCompletion_early (checks : Vector Bool 4) {s : State} (h : ∀ page due, s.kst.op = .erasing page due → s.now < due) :
    exec (.eraseCompletion checks) s = .next s := by
  show execEraseCompletion checks s = .next s
  refine whenLive_of_fixed ?_
  split
  · next page due hop => exact if_neg (Nat.not_le.2 (h page due hop))
  all_goals exact rfl

theorem protectCompletion_due {s : State} {b due : Nat} (hlive : s.live = true)
    (hop : s.kst.op = .protecting b due) (hdue : due ≤ s.now) :
    exec .protectCompletion s = .next (completeProtect b s) := by
  show execProtectCompletion s = _
  refine (whenLive_of_live hlive _).trans (congrArg _ ?_)
  rw [hop]
  exact if_pos hdue

theorem protectCompletion_early {s : State} (h : ∀ b due, s.kst.op = .protecting b due → s.now < due) :
    exec .protectCompletion s = .next s := by
  show execProtectCompletion s = .next s
  refine whenLive_of_fixed ?_
  split
  · next b due hop => exact if_neg (Nat.not_le.2 (h b due hop))
  all_goals exact rfl

theorem epochUpdateCompletion_due {s : State} {due : Nat} (hlive : s.live = true)
    (hop : s.kst.op = .epochUpdate due) (hdue : due ≤ s.now) :
    exec .epochUpdateCompletion s = .next (completeEpoch s) := by
  show execEpochUpdateCompletion s = _
  refine (whenLive_of_live hlive _).trans (congrArg _ ?_)
  rw [hop]
  exact if_pos hdue

theorem epochUpdateCompletion_early {s : State} (h : ∀ due, s.kst.op = .epochUpdate due → s.now < due) :
    exec .epochUpdateCompletion s = .next s := by
  show execEpochUpdateCompletion s = .next s
  refine whenLive_of_fixed ?_
  split
  · next due hop => exact if_neg (Nat.not_le.2 (h due hop))
  all_goals exact rfl

theorem eraseDone_slots_other (checks : Vector Bool 4) {page : Fin 4} (k : KeyStore) {i : SlotNo} (h : i.val / 4 ≠ page.val) :
    (eraseDone checks page k).slots[i] = k.slots[i] := by
  rw [eraseDone, setPage_getElem]
  exact if_neg fun e => h ((pageOf_eq_iff i page).1 e).symm

/-- What the completion of an epoch update leaves (R187). -/
theorem completeEpoch_kst (s : State) : (completeEpoch s).kst = { s.kst with epoch := s.kst.epoch + 1, op := .idle } :=
  (verifyAll_work _).kst

theorem completeEpoch_eq (s : State) : completeEpoch s = verifyAll { s with kst := (completeEpoch s).kst } := by
  rw [completeEpoch_kst]
  exact rfl

/-- Settles O53: each completion from its array work, the verifications and, for a program, the serving of the slot. -/
theorem completionsLeaveTheirResults : Obligations.CompletionsLeaveTheirResults := by
  unfold Obligations.CompletionsLeaveTheirResults
  refine ⟨fun s agrees hlive => ⟨fun slot key due hop hdue => ?_, programCompletion_early agrees⟩, fun s checks hlive =>
    ⟨fun page due hop hdue => ?_, fun b due hop hdue => ?_, fun due hop hdue => ?_, eraseCompletion_early checks,
      protectCompletion_early, epochUpdateCompletion_early⟩⟩
  · obtain ⟨w, hw⟩ : ∃ w, programServed agrees slot key s = w := ⟨_, rfl⟩
    have served := programServed_served rfl hw
    have finished := completed_over (k := programDone agrees slot key s.kst) rfl rfl served rfl
    have kst := completed_kst served
    refine ⟨_, (programCompletion_due agrees hlive hop hdue).trans (by rw [completeProgram_eq, hw]), finished, ?_, ?_, ?_, fun i hi => ?_,
      fun hd => ⟨verifyAll (arrayDone s (programDone agrees slot key s.kst)), completed_verified rfl rfl served hd,
        completed_unawaited rfl rfl served, fun hdiffers => ?_, ?_, fun hagrees => ?_, fun hagrees => ?_⟩⟩
    · rw [kst, startPending_boundary]
      exact rfl
    · rw [kst, startPending_lastResult]
      exact rfl
    · rw [kst, startPending_slots, programDone, setSlot_getElem]
      exact if_pos rfl
    · rw [kst, startPending_slots, programDone, setSlot_getElem]
      exact if_neg (Ne.symm hi)
    · subst hdiffers
      rw [← hw]
      exact rfl
    · exact startPendingEpoch_served served
    · subst hagrees
      exact (serveSlot_leaves ((programServed_true slot key s).symm.trans hw)).2.1
    · subst hagrees
      exact (serveSlot_leaves ((programServed_true slot key s).symm.trans hw)).2.2
  · obtain ⟨t, ht⟩ : ∃ t, startPendingEpoch (verifyAll (arrayDone s (eraseDone checks page s.kst))) = t := ⟨_, rfl⟩
    obtain ⟨finished, kst, verified⟩ := completed_unserved (eraseDone_op checks page s.kst)
      (eraseDone_epochPending checks page s.kst) (eraseDone_epoch checks page s.kst) ht
    refine ⟨_, (eraseCompletion_due checks hlive hop hdue).trans (congrArg _ ((completeErase_eq checks page s).trans ht)), finished, ?_,
      fun hall => ?_, fun hnot => ?_, fun i j hij => ?_, fun i hi => ?_, verified⟩
    · exact (congrArg KeyStore.boundary kst).trans ((startPending_boundary _ _).trans (eraseDone_boundary checks page s.kst))
    · exact (congrArg KeyStore.lastResult kst).trans ((startPending_lastResult _ _).trans (if_pos (checks_all.2 hall)))
    · refine (congrArg KeyStore.lastResult kst).trans ((startPending_lastResult _ _).trans (if_neg fun hall => ?_))
      obtain ⟨i, hi⟩ := hnot
      exact absurd (checks_all.1 hall i) (by rw [hi]; nofun)
    · exact (congrArg (fun k => k.slots[i]) kst).trans
        ((congrArg (fun v => v[i]) (startPending_slots _ _)).trans (eraseDone_slots checks page s.kst i j hij))
    · exact (congrArg (fun k => k.slots[i]) kst).trans
        ((congrArg (fun v => v[i]) (startPending_slots _ _)).trans (eraseDone_slots_other checks s.kst hi))
  · obtain ⟨t, ht⟩ : ∃ t, startPendingEpoch (verifyAll (arrayDone s (protectDone b s.kst))) = t := ⟨_, rfl⟩
    obtain ⟨finished, kst, verified⟩ := completed_unserved (k := protectDone b s.kst) rfl rfl rfl ht
    exact ⟨_, (protectCompletion_due hlive hop hdue).trans (congrArg _ ((completeProtect_eq b s).trans ht)), finished,
      (congrArg KeyStore.boundary kst).trans (startPending_boundary _ _),
      (congrArg KeyStore.lastResult kst).trans (startPending_lastResult _ _),
      (congrArg KeyStore.slots kst).trans (startPending_slots _ _), verified⟩
  · refine ⟨_, epochUpdateCompletion_due hlive hop hdue, ?_⟩
    have inOrder (hd : RecordsDistinct s) :=
      verifyAll_inOrder (s := { s with kst := (completeEpoch s).kst }) (RecordsDistinct.mk hd.apart hd.tags)
    rw [← completeEpoch_eq] at inOrder
    exact ⟨completeEpoch_kst s, fun h => (completeEpoch_eq s).trans (verifyAll_idle (s := { s with kst := (completeEpoch s).kst }) h),
      inOrder, fun i r nonce slot => verifyAll_none_awaits⟩

end Sys2Proof.Machine
end

section
/-! PROOFS. The steps of an application of the pending edit set, item by item (09, 9.5; 01, 1.4; 02, 2.7): the reaction of POS to a
POSITION-CONFIG item, and what a CLASS item takes from positions, gives them and evaluates anew. -/

namespace Sys2Proof.Machine

/-! ### Step 2: the reaction to a POSITION-CONFIG item (R4) -/

theorem settlingChanged_iff (old new : PosConfig) : settlingChanged old new = true ↔
    old.settleCycles ≠ new.settleCycles ∨ old.watchForm ≠ new.watchForm ∨ old.watchMask ≠ new.watchMask := by
  simp [settlingChanged, or_assoc]

section

variable {p : Pos} {old new : PosConfig} {s : State}

theorem reactConfig_disabled (ho : old.enabled = true) (hn : new.enabled = false) (hp : s.run[p].phase ≠ .disabled) :
    reactConfig p old new s = removePart .disabled .disabled p s := by
  rw [reactConfig, if_pos ⟨ho, hn⟩]
  exact if_neg hp

theorem reactConfig_enabled (ho : old.enabled = false) (hn : new.enabled = true)
    (hc : p.val + 1 ≤ s.mgt.setup.positionCount) : reactConfig p old new s = modRun p (fun _ => Runtime.cleared .vacant) s := by
  rw [reactConfig, if_neg (by rw [ho]; nofun), if_pos ⟨ho, hn⟩]
  exact if_pos hc

/-- Where the enable field is unchanged, settling may start again. -/
theorem reactConfig_settling (he : old.enabled = new.enabled) : reactConfig p old new s =
    if s.run[p].phase = .settling ∧ settlingChanged old new = true then modRun p (fun r => { r with settleCount := 0 }) s else s := by
  have same (b c : Bool) (hbc : b ≠ c) : ¬ (old.enabled = b ∧ new.enabled = c) :=
    fun ⟨ho, hn⟩ => hbc (ho.symm.trans (he.trans hn))
  rw [reactConfig, if_neg (same true false nofun), if_neg (same false true nofun)]

theorem reactConfig_kept
    (h : (old.enabled = true ∧ new.enabled = false ∧ s.run[p].phase = .disabled) ∨
      (old.enabled = false ∧ new.enabled = true ∧ s.mgt.setup.positionCount < p.val + 1) ∨
      (old.enabled = new.enabled ∧ (s.run[p].phase ≠ .settling ∨ (old.settleCycles = new.settleCycles ∧
        old.watchForm = new.watchForm ∧ old.watchMask = new.watchMask)))) : reactConfig p old new s = s := by
  rcases h with ⟨ho, hn, hp⟩ | ⟨ho, hn, hc⟩ | ⟨he, h⟩
  · rw [reactConfig, if_pos ⟨ho, hn⟩]
    exact if_pos hp
  · rw [reactConfig, if_neg (by rw [ho]; nofun), if_pos ⟨ho, hn⟩]
    exact if_neg (Nat.not_le.2 hc)
  · rw [reactConfig_settling he]
    refine if_neg fun ⟨hp, hs⟩ => ?_
    rw [settlingChanged_iff] at hs
    tauto

end

theorem reactConfig_reacts (p : Pos) (old new : PosConfig) (s : State) : ConfigReaction p old new s (reactConfig p old new s) := by
  refine ⟨fun ho hn hp => ?_, fun ho hn hc => ?_, fun he hp hs => ?_, reactConfig_kept⟩
  · rw [reactConfig_disabled ho hn hp]
    exact removePart_removed _ _ p s
  · rw [reactConfig_enabled ho hn hc]
    exact ⟨rfl, (modRun_acted p (fun _ => Runtime.cleared .vacant) s).others, modRun_self p _ s⟩
  · rw [reactConfig_settling he, if_pos ⟨hp, (settlingChanged_iff old new).2 hs⟩]
    exact ⟨rfl, (modRun_acted p (fun r => { r with settleCount := 0 }) s).others, modRun_self p _ s⟩

/-- Work at a position, or none. -/
theorem workAt_if {c : Prop} [Decidable c] {p : Pos} {s t : State} (h : WorkAt p s t) : WorkAt p s (if c then t else s) := by
  split
  · exact h
  · exact .refl p s

/-! ### Step 3: a class index is lost (R51, R76) -/

/-- The class index and the work of a position go. -/
def classLostLatched (r : Runtime) : Runtime := { abandonedRuntime r with classIndex := none }

/-- Without the latch the position is UNDECIDED and HELD besides. -/
def classLost (r : Runtime) : Runtime :=
  { classLostLatched r with verdict := .undecided, reason := some .classUnknown, phase := .held }

/-- What a position leaves that loses its class index. -/
def lostAct (s : State) (p : Pos) : Act :=
  if s.run[p].latch = true then
    { run := classLostLatched s.run[p], queue := withoutEntry p, records := withoutRecord p }
  else
    { run := classLost s.run[p], queue := withoutEntry p, records := withoutRecord p,
      notices := report s p s.run[p].verdict .classUnknown (classLost s.run[p]) }

/-- What step 3 does at a position. -/
def loseAct (i : ClassIdx) (code : Code) (s : State) (p : Pos) : Act :=
  if losesClass s i code p = true then lostAct s p else { run := s.run[p] }

theorem loseClass_acted (p : Pos) (s : State) : Acted p (lostAct s p) s (loseClass p s) := by
  have gone := abandon_acted p s
  unfold loseClass lostAct
  dsimp only
  split
  · refine (gone.before (modRun_acted p (fun r => { r with classIndex := none }) _)).congr ?_
    rw [gone.run]
    exact rfl
  · have changed := gone.before (modRun_acted p
      (fun r => { r with classIndex := none, verdict := .undecided, reason := some .classUnknown, phase := .held }) (abandon p s))
    refine (changed.before (notifyChange_acted p s.run[p].verdict .classUnknown _)).congr ?_
    rw [modRun_self, gone.run, ← report_congr (u := abandon p s) gone.cycleCount]
    exact rfl

theorem loseClass_at (p : Pos) (s : State) : WorkAt p s (loseClass p s) := by
  unfold loseClass
  dsimp only
  refine (abandon_at p s).trans ?_
  split
  · exact modRun_at_of_score p _ _
  · exact (modRun_at_of_score p _ _).trans (notifyChange_at p p _ _ _)

/-- The test of step 3 as the model makes it. -/
theorem losesClass_iff (s : State) (i : ClassIdx) (code : Code) (p : Pos) : losesClass s i code p = true ↔
    s.run[p].classIndex = some i ∧ s.run[p].identity.map Identity.cls ≠ some code := decide_eq_true_iff

theorem dropClass_acted (i : ClassIdx) (code : Code) (s : State) :
    ActedAll (List.finRange 48) (loseAct i code s) s (dropClass i code s) := by
  refine serveAll_acted (fun p u => workAt_if (loseClass_at p u)) fun p u same hfwd => ?_
  have lost : lostAct s p = lostAct u p := by
    unfold lostAct
    rw [same.run, report_congr (u := u) (s := s) (by rw [hfwd])]
  unfold loseAct
  rw [lost, ← same.run]
  by_cases h : losesClass s i code p = true
  · rw [if_pos h, if_pos (same.run ▸ (losesClass_iff s i code p).1 h)]
    exact loseClass_acted p u
  · rw [if_neg h, if_neg (fun hu => h ((losesClass_iff s i code p).2 (same.run ▸ hu)))]
    exact .idle p u

theorem lostAct_notices (s : State) (p : Pos) : (lostAct s p).notices =
    if (!s.run[p].latch && s.run[p].verdict != .undecided) = true then [noticeOf s p .undecided .classUnknown] else [] := by
  unfold lostAct
  by_cases hl : s.run[p].latch = true
  · rw [if_pos hl, hl]
    exact rfl
  · rw [if_neg hl, Bool.eq_false_iff.2 hl]
    unfold report
    by_cases hv : s.run[p].verdict = .undecided
    · rw [hv]
      exact rfl
    · refine (if_neg fun h => hv h.symm).trans (Eq.symm (if_pos ?_))
      rw [Bool.not_false, Bool.true_and, bne_iff_ne]
      exact hv

theorem loseAct_hit {i : ClassIdx} {code : Code} {s : State} {p : Pos} (h : losesClass s i code p = true) :
    loseAct i code s p = lostAct s p := if_pos h

theorem loseAct_spared {i : ClassIdx} {code : Code} {s : State} {p : Pos} (h : losesClass s i code p = false) :
    loseAct i code s p = { run := s.run[p] } := if_neg (by rw [h]; nofun)

theorem dropClass_lost (i : ClassIdx) (code : Code) (s : State) : ClassLost i code s (dropClass i code s) := by
  have acted := dropClass_acted i code s
  generalize dropClass i code s = t at acted
  have run (p : Pos) : t.run[p] = (loseAct i code s p).run := acted.run p (List.mem_finRange p)
  have parts (p : Pos) : (∀ q, (loseAct i code s p).queue q = if losesClass s i code p = true then withoutEntry p q else q) ∧
      (∀ v, (loseAct i code s p).records v = if losesClass s i code p = true then withoutRecord p v else v) ∧
      (loseAct i code s p).sightings = id := by
    by_cases h : losesClass s i code p = true
    · rw [loseAct_hit h, h]
      unfold lostAct
      split <;> exact ⟨fun _ => rfl, fun _ => rfl, rfl⟩
    · rw [loseAct_spared (Bool.eq_false_iff.2 h), Bool.eq_false_iff.2 h]
      exact ⟨fun _ => rfl, fun _ => rfl, rfl⟩
  obtain ⟨queue, records⟩ := acted.abandoned (left := losesClass s i code) (fun p => (parts p).1) fun p => (parts p).2.1
  refine ⟨fun p h hl => ?_, fun p h hl => ?_, fun p h => ?_, queue, fun n r hr => ?_, fun n hn => ?_, ?_, ?_⟩
  · rw [run, loseAct_hit h, lostAct, hl]
    exact rfl
  · rw [run, loseAct_hit h, lostAct, hl]
    exact rfl
  · rw [run, loseAct_spared h]
  · rw [records, hr]
    cases h : losesClass s i code r.position with
    | true => exact Option.filter_some_neg (by simp [h])
    | false => exact Option.filter_some_pos (by simp [h])
  · rw [records, hn]
    exact rfl
  · have notices (p : Pos) : (loseAct i code s p).notices =
        if (losesClass s i code p && !s.run[p].latch && s.run[p].verdict != .undecided) = true
          then [noticeOf s p .undecided .classUnknown] else [] := by
      cases h : losesClass s i code p with
      | true => exact (congrArg Act.notices (loseAct_hit h)).trans (lostAct_notices s p)
      | false => exact congrArg Act.notices (loseAct_spared h)
    have all := (List.flatMap_congr (l := List.finRange 48) fun p _ => notices p).trans (flatMap_ite _ _ _)
    exact acted.notices.trans (congrArg (offered · s) all)
  · have frame := acted.frame
    unfold OnlyPositionWork at frame
    rw [acted.sightings_kept fun p => (parts p).2.2] at frame
    exact frame

end Sys2Proof.Machine
end

section
/-! PROOFS. The steps of an application of the pending edit set, item by item (09, 9.5; 02, 2.7): what a CLASS item gives positions
and evaluates anew. -/

namespace Sys2Proof.Machine

/-! ### Step 4: a class index is gained (R51, R57) -/

/-- What a position leaves that gains a class index. -/
def gainedAct (i : ClassIdx) (s : State) (p : Pos) : Act :=
  if s.run[p].latch = true then { run := { s.run[p] with classIndex := some i } }
  else { run := calledRuntime (free s p) .new .new { s.run[p] with classIndex := some i, score := 0 },
         queue := askQueue (free s p) p .new }

/-- What step 4 does at a position. -/
def gainAct (i : ClassIdx) (code : Code) (s : State) (p : Pos) : Act :=
  if gainsClass s code p = true then gainedAct i s p else { run := s.run[p] }

theorem gainClass_acted (i : ClassIdx) (p : Pos) (s : State) : Acted p (gainedAct i s p) s (gainClass i p s) := by
  unfold gainClass gainedAct
  split
  · exact modRun_acted p (fun r => { r with classIndex := some i }) s
  · refine ((modRun_acted p (fun r => { r with classIndex := some i, score := 0 }) s).before (callNew_acted p _)).congr ?_
    rw [modRun_self]
    exact rfl

theorem gainClass_at (i : ClassIdx) (p : Pos) (s : State) : WorkAt p s (gainClass i p s) := by
  unfold gainClass
  split
  · exact modRun_at_of_score p _ s
  · have started : WorkAt p s (modRun p (fun r => { r with classIndex := some i, score := 0 }) s) :=
      modRun_at p _ s (modRun_work p _ s fun _ => ⟨show (-1000 : Int) ≤ 0 by decide, show (0 : Int) ≤ 1000 by decide⟩)
    exact started.trans (callNew_at p _)

/-- The test of step 4 as the model makes it. -/
theorem gainsClass_iff (s : State) (code : Code) (p : Pos) : gainsClass s code p = true ↔
    s.run[p].classIndex = none ∧ s.run[p].identity.map Identity.cls = some code := decide_eq_true_iff

theorem addClass_acted (i : ClassIdx) {code : Code} (h : code ≠ 0) (s : State) :
    ActedAll (List.finRange 48) (gainAct i code s) s (addClass i code s) := by
  rw [addClass, if_neg h]
  refine serveAll_acted (fun p u => workAt_if (gainClass_at i p u)) fun p u same _ => ?_
  have gained : gainedAct i s p = gainedAct i u p := by
    unfold gainedAct
    rw [same.run, same.free_eq]
  unfold gainAct
  rw [gained, ← same.run]
  by_cases h : gainsClass s code p = true
  · rw [if_pos h, if_pos (same.run ▸ (gainsClass_iff s code p).1 h)]
    exact gainClass_acted i p u
  · rw [if_neg h, if_neg (fun hu => h ((gainsClass_iff s code p).2 (same.run ▸ hu)))]
    exact .idle p u

theorem gainAct_hit {i : ClassIdx} {code : Code} {s : State} {p : Pos} (h : gainsClass s code p = true) :
    gainAct i code s p = gainedAct i s p := if_pos h

theorem gainAct_spared {i : ClassIdx} {code : Code} {s : State} {p : Pos} (h : gainsClass s code p = false) :
    gainAct i code s p = { run := s.run[p] } := if_neg (by rw [h]; nofun)

theorem gainAct_quiet (i : ClassIdx) (code : Code) (s : State) (p : Pos) : (gainAct i code s p).records = id ∧
    (gainAct i code s p).sightings = id ∧ (gainAct i code s p).notices = [] := by
  unfold gainAct gainedAct
  split
  · split <;> exact ⟨rfl, rfl, rfl⟩
  · exact ⟨rfl, rfl, rfl⟩

theorem gainAct_queue {i : ClassIdx} {code : Code} {s : State} {p : Pos}
    (hfree : gainsClass s code p = true → s.run[p].latch = false → Unasked s p) (q : List Request) :
    (gainAct i code s p).queue q =
      if (gainsClass s code p && !s.run[p].latch) = true then enqueue { position := p, kind := .new } q else q := by
  by_cases h : gainsClass s code p = true
  · rw [gainAct_hit h, h, Bool.true_and]
    unfold gainedAct
    by_cases hl : s.run[p].latch = true
    · rw [if_pos hl, hl]
      exact rfl
    · have hl := Bool.eq_false_iff.2 hl
      rw [hl, (free_iff s p).2 (hfree h hl)]
      exact rfl
  · rw [gainAct_spared (Bool.eq_false_iff.2 h), Bool.eq_false_iff.2 h]
    exact rfl

/-- The runtime halves after step 4, where the queue or a record may already hold work of the position. -/
theorem addClass_run (i : ClassIdx) {code : Code} (h : code ≠ 0) (s : State) (p : Pos) :
    (addClass i code s).run[p] = (gainAct i code s p).run := (addClass_acted i h s).run p (List.mem_finRange p)

theorem addClass_gained (i : ClassIdx) (code : Code) (s : State) : ClassGained i code s (addClass i code s) := by
  by_cases h0 : code = 0
  · have none : addClass i code s = s := if_pos h0
    rw [none]
    exact ⟨fun _ => rfl, fun h => absurd h0 h, fun h => absurd h0 h, fun _ _ => rfl, fun h => absurd h0 h, rfl⟩
  · have acted := addClass_acted i h0 s
    have run := addClass_run i h0 s
    generalize addClass i code s = t at acted run
    refine ⟨fun h => absurd h h0, fun _ p h hl => ?_, fun _ p h hl hu => ?_, fun p h => ?_, fun _ urgent due hq hfree => ?_,
      acted.quiet (fun p => (gainAct_quiet i code s p).1) (fun p => (gainAct_quiet i code s p).2.1)
        fun p => (gainAct_quiet i code s p).2.2⟩
    · rw [run, gainAct_hit h, gainedAct, if_pos hl]
    · rw [run, gainAct_hit h, gainedAct, hl, (free_iff s p).2 hu]
      exact rfl
    · rw [run, gainAct_spared h]
    · have step (q : List Request) (p : Pos) : (gainAct i code s p).queue q =
          queueStep (fun _ => false) (fun p => gainsClass s code p && !s.run[p].latch) .new q p :=
        (gainAct_queue (hfree p) q).trans (if_neg Bool.false_ne_true).symm
      rw [acted.queue, List.foldl_ext _ _ _ fun q p _ => step q p,
        foldl_queueStep (kind := .new) (by decide) (fun _ h => absurd h Bool.false_ne_true) (List.nodup_finRange 48) hq]
      simp only [Bool.and_false, Bool.not_false, List.filter_true]
      exact rfl

/-! ### Step 5: the positions of an entry are evaluated anew (R50) -/

/-- What step 5 does at a position. -/
def reevaluateAct (i : ClassIdx) (e : ClassEntry) (s : State) (p : Pos) : Act :=
  if s.run[p].classIndex = some i then evaluateAct e .tableChange s p s.run[p] else { run := s.run[p] }

theorem reevaluateClass_acted {i : ClassIdx} {e : ClassEntry} {s : State} (he : s.mgt.classes[i] = e) :
    ActedAll (List.finRange 48) (reevaluateAct i e s) s (reevaluateClass i s) := by
  refine serveAll_acted (fun p u => workAt_if (evaluate_at p .tableChange u)) fun p u same hfwd => ?_
  unfold reevaluateAct
  rw [← same.run]
  split
  · next hc =>
    have cls : classOf u u.run[p] = some e := by
      unfold classOf
      rw [hc]
      exact congrArg some ((congrArg (fun v => v[i]) same.classes).trans he)
    rw [← evaluateAct_congr same.free_eq (by rw [hfwd])]
    exact evaluate_acted cls .tableChange
  · exact .idle p u

theorem reevaluateAct_hit {i : ClassIdx} {e : ClassEntry} {s : State} {p : Pos} (h : s.run[p].classIndex = some i) :
    reevaluateAct i e s p = evaluateAct e .tableChange s p s.run[p] := if_pos h

theorem reevaluateAct_spared {i : ClassIdx} {e : ClassEntry} {s : State} {p : Pos} (h : s.run[p].classIndex ≠ some i) :
    reevaluateAct i e s p = { run := s.run[p] } := if_neg h

theorem reevaluateAct_calls (i : ClassIdx) (e : ClassEntry) (s : State) (p : Pos) :
    (reevaluateAct i e s p).CallsDue .tableChange s p := by
  by_cases h : s.run[p].classIndex = some i
  · rw [reevaluateAct_hit h]
    exact evaluateAct_calls e .tableChange rfl rfl rfl rfl
  · rw [reevaluateAct_spared h]
    exact .idle .tableChange s p

theorem reevaluateAct_score (i : ClassIdx) (e : ClassEntry) (s : State) (p : Pos) :
    (reevaluateAct i e s p).run.score = s.run[p].score := by
  by_cases h : s.run[p].classIndex = some i
  · rw [reevaluateAct_hit h]
    exact judgedRuntime_score _ _ _ _
  · rw [reevaluateAct_spared h]

theorem reevaluateClass_reevaluated {i : ClassIdx} {e : ClassEntry} {s : State} (he : s.mgt.classes[i] = e) :
    ClassReevaluated i e s (reevaluateClass i s) := by
  have acted := reevaluateClass_acted he
  generalize reevaluateClass i s = t at acted
  have run (p : Pos) : t.run[p] = (reevaluateAct i e s p).run := acted.run p (List.mem_finRange p)
  have others (p : Pos) (h : s.run[p].classIndex ≠ some i) : t.run[p] = s.run[p] := by rw [run, reevaluateAct_spared h]
  have evaluated (p : Pos) (h : s.run[p].classIndex = some i) : Evaluated e .tableChange (Unasked s p) s.run[p] t.run[p] := by
    rw [run, reevaluateAct_hit h]
    exact judgedRuntime_evaluated e .tableChange (free_iff s p) s.run[p]
  obtain ⟨queue, records, sightings, notices⟩ := acted.calls (reevaluateAct_calls i e s)
  refine ⟨fun p h => (evaluated p h).verdict, fun p h => ⟨(evaluated p h).kept, (evaluated p h).changed, (evaluated p h).called⟩,
    others, fun hfree => ?_, ?_, ?_⟩
  · refine queue.trans (congrArg (s.sch.queue ++ List.map _ ·) (List.filter_congr fun p _ => ?_))
    by_cases h : s.run[p].classIndex = some i
    · rw [decide_eq_true h, Bool.true_and]
      cases hc : calledDue s.run[p] t.run[p].verdict with
      | false => rfl
      | true => exact (free_iff s p).2 (hfree p h hc)
    · rw [decide_eq_false h, others p h]
      simp [calledDue]
  · refine notices.trans (congrArg (offered · s) (List.map_congr_left fun p _ => ?_))
    rw [run, reevaluateAct_score]
    exact rfl
  · have frame := acted.frame
    unfold OnlyPositionWork at frame
    rw [records, sightings] at frame
    exact frame

end Sys2Proof.Machine
end

section
/-! PROOFS. The application of the pending edit set (09, 9.5; R166): its five steps, an exchange of two class codes, and one item
alone (O46). -/

namespace Sys2Proof.Machine

/-! ### The five steps over the items -/

/-- A relation of one step that the step meets wherever a property stands which the step keeps. -/
theorem each_overItems {R : EditItem → State → State → Prop} {P : State → Prop} {f : EditItem → State → State}
    {items : List EditItem} (hR : ∀ x ∈ items, ∀ s, P s → R x s (f x s)) (hP : ∀ x s, P s → P (f x s)) {s : State} (hs : P s) :
    Each R items s (overItems f items s) := by
  induction items generalizing s with
  | nil => exact rfl
  | cons x items ih =>
    exact ⟨f x s, hR x List.mem_cons_self s hs, ih (fun y hy => hR y (List.mem_cons_of_mem _ hy)) (hP x s hs)⟩

theorem stepTwo_reacts (old : Vector PosConfig 48) (x : EditItem) (s : State) : Reacts old x s (stepTwo old x s) := by
  cases x with
  | config p c => exact reactConfig_reacts p old[p] c s
  | cls i e => exact rfl

theorem stepThree_loses (x : EditItem) (s : State) : Loses x s (stepThree x s) := by
  cases x with
  | config p c => exact rfl
  | cls i e => exact dropClass_lost i e.code s

theorem stepFour_gains (x : EditItem) (s : State) : Gains x s (stepFour x s) := by
  cases x with
  | config p c => exact rfl
  | cls i e => exact addClass_gained i e.code s

theorem stepFive_reevaluates (old : Vector ClassEntry 32) {x : EditItem} {s : State}
    (h : ∀ i e, x = .cls i e → s.mgt.classes[i] = e) : Reevaluates old x s (stepFive old x s) := by
  cases x with
  | config p c => exact rfl
  | cls i e =>
    refine ⟨fun hc => ?_, fun hc => if_neg ?_⟩
    · rw [show stepFive old (.cls i e) s = reevaluateClass i s from if_pos hc]
      exact reevaluateClass_reevaluated (h i e rfl)
    · rintro ⟨h0, hcode, hne⟩
      rcases hc with h | h | h
      · exact h0 h
      · exact h hcode
      · exact hne h

theorem applyEvent_applies {s : State} (hh : s.mgt.hold = false) (he : s.mgt.edits ≠ []) : applyEvent s = applyEdits s :=
  if_pos ⟨hh, he⟩

theorem applyEdits_inSteps {s : State} (h : EditsOnce s.mgt.edits) : AppliedInSteps s (applyEdits s) := by
  have replaced := entriesReplaced h s
  have worked := ((overItems_work _ (stepTwo_work s.configs) s.mgt.edits (overItems replaceEntry s.mgt.edits s)).trans
    (overItems_work _ stepThree_work s.mgt.edits _)).trans (overItems_work _ stepFour_work s.mgt.edits _)
  refine ⟨_, _, _, _, _, replaced, each_overItems (P := fun _ => True) (fun x _ u _ => stepTwo_reacts s.configs x u) (fun _ _ _ => trivial)
    trivial, each_overItems (P := fun _ => True) (fun x _ u _ => stepThree_loses x u) (fun _ _ _ => trivial) trivial,
    each_overItems (P := fun _ => True) (fun x _ u _ => stepFour_gains x u) (fun _ _ _ => trivial) trivial,
    each_overItems (P := fun u => u.mgt.classes = (overItems replaceEntry s.mgt.edits s).mgt.classes)
      (fun x hx u hu => stepFive_reevaluates s.mgt.classes ?_) (fun x u hu => ?_) worked.classes, rfl⟩
  · rintro i e rfl
    exact (congrArg (fun v => v[i]) hu).trans (replaced.cls i e hx)
  · exact (stepFive_work s.mgt.classes x u).classes.trans hu

/-! ### One position under steps 3 and 4 -/

/-- Work at every position that leaves a position alone. -/
theorem serveAll_same {f : Pos → State → State} (hat : ∀ q u, WorkAt q u (f q u)) {p : Pos} {s : State}
    (hp : ∀ u, SameAt p s u → f p u = u) : SameAt p s (serveAll f s) := by
  unfold serveAll
  suffices general : ∀ (l : List Pos) (u : State), SameAt p s u → SameAt p s (l.foldl (fun t q => f q t) u) from general _ s (.refl p s)
  intro l
  induction l with
  | nil => exact fun u hu => hu
  | cons q l ih =>
    refine fun u hu => ih (f q u) ?_
    by_cases hq : q = p
    · rw [hq, hp u hu]
      exact hu
    · exact hu.trans (.of_work (hat q u) (Ne.symm hq))

theorem dropClass_same {i : ClassIdx} {code : Code} {s : State} {p : Pos} (h : losesClass s i code p = false) :
    SameAt p s (dropClass i code s) := by
  refine serveAll_same (fun q u => workAt_if (loseClass_at q u)) fun u hu => if_neg fun hl => ?_
  rw [hu.run] at hl
  exact absurd ((losesClass_iff s i code p).2 hl) (by rw [h]; nofun)

theorem addClass_same {i : ClassIdx} {code : Code} {s : State} {p : Pos} (h : gainsClass s code p = false) :
    SameAt p s (addClass i code s) := by
  unfold addClass
  split
  · exact .refl p s
  · refine serveAll_same (fun q u => workAt_if (gainClass_at i q u)) fun u hu => if_neg fun hl => ?_
    rw [hu.run] at hl
    exact absurd ((gainsClass_iff s code p).2 hl) (by rw [h]; nofun)

theorem reevaluateClass_same {i : ClassIdx} {s : State} {p : Pos} (h : s.run[p].classIndex ≠ some i) :
    SameAt p s (reevaluateClass i s) := by
  refine serveAll_same (fun q u => workAt_if (evaluate_at q .tableChange u)) fun u hu => if_neg fun hl => h ?_
  rwa [hu.run] at hl

/-- What a position leaves that loses its class index. -/
def lostRuntime (r : Runtime) : Runtime := if r.latch = true then classLostLatched r else classLost r

theorem dropClass_hit {i : ClassIdx} {code : Code} {s : State} {p : Pos} (h : losesClass s i code p = true) :
    (dropClass i code s).run[p] = lostRuntime s.run[p] ∧ Unasked (dropClass i code s) p := by
  have lost := dropClass_lost i code s
  refine ⟨?_, fun e he hp => ?_, fun n r hr hp => ?_⟩
  · unfold lostRuntime
    split
    · next hl => exact lost.latched p h hl
    · next hl => exact lost.unlatched p h (Bool.eq_false_iff.2 hl)
  · rw [lost.queue] at he
    have := (List.mem_filter.1 he).2
    rw [hp, h] at this
    cases this
  · cases hn : s.sch.records[n] with
    | none => rw [lost.free n hn] at hr; cases hr
    | some r₀ =>
      rw [lost.freed n r₀ hn] at hr
      split at hr
      · cases hr
      · next hl =>
        obtain rfl := Option.some.inj hr
        exact hl (hp ▸ h)

theorem addClass_hit {i : ClassIdx} {code : Code} {s : State} {p : Pos} (h0 : code ≠ 0) (h : gainsClass s code p = true) :
    (addClass i code s).run[p] = (gainedAct i s p).run := by
  rw [addClass_run i h0 s p, gainAct_hit h]

theorem losesClass_eq_false {i : ClassIdx} {code : Code} {s : State} {p : Pos}
    (h : s.run[p].classIndex ≠ some i ∨ s.run[p].identity.map Identity.cls = some code) : losesClass s i code p = false := by
  refine decide_eq_false fun ⟨hi, hc⟩ => ?_
  exact h.elim (· hi) fun he => hc he

theorem gainsClass_eq_false {code : Code} {s : State} {p : Pos}
    (h : s.run[p].classIndex ≠ none ∨ s.run[p].identity.map Identity.cls ≠ some code) : gainsClass s code p = false := by
  refine decide_eq_false fun ⟨hi, hc⟩ => ?_
  exact h.elim (· hi) fun he => he hc

end Sys2Proof.Machine
end

section
/-! PROOFS. An exchange of two class codes, and the application of one item alone (09, 9.5; O46). -/

namespace Sys2Proof.Machine

/-! ### An exchange of two class codes -/

/-- A part without the latch that gains an index starts anew. -/
theorem gainedAct_started {i : ClassIdx} {s : State} {p : Pos} (hl : s.run[p].latch = false) :
    (gainedAct i s p).run.classIndex = some i ∧ (gainedAct i s p).run.score = 0 ∧
      (gainedAct i s p).run.phase = .challenging ∧ (Unasked s p → (gainedAct i s p).run.pendingRequest = some .new) := by
  have started : (gainedAct i s p).run =
      calledRuntime (free s p) .new .new { s.run[p] with classIndex := some i, score := 0 } :=
    congrArg Act.run (if_neg (by rw [hl]; nofun))
  rw [started, ← free_iff]
  unfold calledRuntime
  split
  · exact ⟨rfl, rfl, rfl, fun _ => rfl⟩
  · next h => exact ⟨rfl, rfl, rfl, fun hf => absurd hf h⟩

/-- What the exchange leaves of a part that takes the other index. -/
def exchanged (k : ClassIdx) (r : Runtime) : Runtime :=
  if r.latch = true then { r with classIndex := some k, pendingRequest := none, remaining := 0 }
  else { r with
    classIndex := some k, score := 0, verdict := .undecided, reason := some .classUnknown, phase := .challenging,
    sweepAge := 0, remaining := 0, pendingRequest := some .new, roundKind := .new }

theorem lostRuntime_cleared (r : Runtime) : (lostRuntime r).classIndex = none ∧ (lostRuntime r).identity = r.identity ∧
    (lostRuntime r).latch = r.latch := by
  unfold lostRuntime
  split <;> exact ⟨rfl, rfl, rfl⟩

/-- A part that has lost its index and gains another. -/
theorem gainedAct_exchanged {k : ClassIdx} {s : State} {p : Pos} {r : Runtime} (hr : s.run[p] = lostRuntime r) (hu : Unasked s p) :
    (gainedAct k s p).run = exchanged k r := by
  unfold gainedAct exchanged
  rw [hr, (lostRuntime_cleared r).2.2, (free_iff s p).2 hu]
  unfold lostRuntime
  split <;> exact rfl

theorem SameAt.unasked {p : Pos} {s t : State} (h : SameAt p s t) (hu : Unasked s p) : Unasked t p :=
  (free_iff t p).1 (h.free_eq.trans ((free_iff s p).2 hu))

section

variable {s : State} {i j : ClassIdx} {c d : Code} {p : Pos}

/-- Of two CLASS items the first takes the index and the second gives another. -/
theorem exchange_first (hcd : c ≠ d) (hd : d ≠ 0) (hi : s.run[p].classIndex = some i)
    (hid : s.run[p].identity.map Identity.cls = some d) :
    (addClass j d (addClass i c (dropClass j d (dropClass i c s)))).run[p] = exchanged j s.run[p] := by
  obtain ⟨lost, unasked⟩ := dropClass_hit ((losesClass_iff s i c p).2 ⟨hi, by rw [hid]; exact fun e => hcd (Option.some.inj e).symm⟩)
  obtain ⟨cleared, ident, -⟩ := lostRuntime_cleared s.run[p]
  have second := dropClass_same (i := j) (code := d) (losesClass_eq_false (.inl (by rw [lost, cleared]; nofun)))
  have third := addClass_same (i := i) (code := c) (s := dropClass j d (dropClass i c s)) (p := p) (gainsClass_eq_false (.inr (by
    rw [second.run, lost, ident, hid]
    exact fun e => hcd (Option.some.inj e).symm)))
  have all := second.trans third
  have run := all.run.trans lost
  rw [addClass_hit hd ((gainsClass_iff _ _ _).2 ⟨by rw [run, cleared], by rw [run, ident, hid]⟩)]
  exact gainedAct_exchanged run (all.unasked unasked)

/-- Of two CLASS items the second takes the index and the first gives another. -/
theorem exchange_second (hcd : c ≠ d) (hc : c ≠ 0) (hj : s.run[p].classIndex = some j)
    (hid : s.run[p].identity.map Identity.cls = some c) :
    (addClass j d (addClass i c (dropClass j d (dropClass i c s)))).run[p] = exchanged i s.run[p] := by
  have first := dropClass_same (i := i) (code := c) (losesClass_eq_false (.inr hid))
  obtain ⟨lost, unasked⟩ := dropClass_hit (i := j) (code := d) (s := dropClass i c s) (p := p)
    ((losesClass_iff _ _ _ _).2 ⟨by rw [first.run, hj], by rw [first.run, hid]; exact fun e => hcd (Option.some.inj e)⟩)
  rw [first.run] at lost
  obtain ⟨cleared, ident, -⟩ := lostRuntime_cleared s.run[p]
  have gained := (addClass_hit (i := i) hc ((gainsClass_iff _ _ _).2 ⟨by rw [lost, cleared], by rw [lost, ident, hid]⟩)).trans
    (gainedAct_exchanged lost unasked)
  have last := addClass_same (i := j) (code := d) (gainsClass_eq_false (.inl (by
    rw [gained, exchanged]
    split <;> nofun)))
  exact last.run.trans gained

end

/-! ### The steps of an application over one item and over two -/

theorem overItems_single (f : EditItem → State → State) (x : EditItem) (s : State) : overItems f [x] s = f x s := rfl

theorem overItems_pair (f : EditItem → State → State) (x y : EditItem) (s : State) : overItems f [x, y] s = f y (f x s) := rfl

section

variable (i : ClassIdx) (e : ClassEntry) (s : State)

theorem stepTwo_cls (old : Vector PosConfig 48) : stepTwo old (.cls i e) s = s := rfl

theorem stepThree_cls : stepThree (.cls i e) s = dropClass i e.code s := rfl

theorem stepFour_cls : stepFour (.cls i e) s = addClass i e.code s := rfl

end

theorem stepFive_kept {old : Vector ClassEntry 32} {i : ClassIdx} {e : ClassEntry} (h : old[i].code ≠ e.code) (s : State) :
    stepFive old (.cls i e) s = s := if_neg fun hc => h hc.2.1

/-- The runtime halves where a set exchanges the codes of two entries. -/
theorem applyEvent_exchange {s : State} {i j : ClassIdx} {e f : ClassEntry} (hh : s.mgt.hold = false)
    (hed : s.mgt.edits = [.cls i e, .cls j f]) (he : e.code = s.mgt.classes[j].code) (hf : f.code = s.mgt.classes[i].code)
    (hne : e.code ≠ f.code) {u : State} (hu : u = replaceEntry (.cls j f) (replaceEntry (.cls i e) s)) :
    (applyEvent s).run = (addClass j f.code (addClass i e.code (dropClass j f.code (dropClass i e.code u)))).run := by
  have steps : fiveSteps s = stepFive s.mgt.classes (.cls j f) (stepFive s.mgt.classes (.cls i e)
      (addClass j f.code (addClass i e.code (dropClass j f.code (dropClass i e.code u))))) := by
    simp only [fiveSteps, hed, hu, overItems_pair, stepTwo_cls, stepThree_cls, stepFour_cls]
  rw [applyEvent_applies hh (by rw [hed]; nofun), applyEdits_eq, steps, stepFive_kept (by rw [← he]; exact hne),
    stepFive_kept (by rw [← hf]; exact hne.symm)]

/-! ### One POSITION-CONFIG item alone -/

section

variable {s : State} {p : Pos} {c : PosConfig}

/-- The state with the item's configuration in place. -/
def withConfig (p : Pos) (c : PosConfig) (s : State) : State := { s with configs := s.configs.set p.val c p.isLt }

/-- The state with an empty pending edit set. -/
def withoutEdits (s : State) : State := { s with mgt := { s.mgt with edits := [] } }

theorem applyEvent_config (hh : s.mgt.hold = false) (hed : s.mgt.edits = [.config p c]) :
    applyEvent s = withoutEdits (reactConfig p s.configs[p] c (withConfig p c s)) := by
  have steps : fiveSteps s = reactConfig p s.configs[p] c (withConfig p c s) := by
    simp only [fiveSteps, hed, overItems_single]
    exact rfl
  rw [applyEvent_applies hh (by rw [hed]; nofun), applyEdits_eq, steps]
  exact rfl

/-- The reaction of R4 to the item. -/
theorem applyEvent_config_reacts (hh : s.mgt.hold = false) (hed : s.mgt.edits = [.config p c]) :
    ∃ v, applyEvent s = withoutEdits v ∧ ConfigReaction p s.configs[p] c (withConfig p c s) v ∧ OthersKeep p s v ∧
      v.configs = (withConfig p c s).configs :=
  ⟨_, applyEvent_config hh hed, reactConfig_reacts _ _ _ _, (OrderlyBut.reactConfig_at p _ c (withConfig p c s)).others,
    (reactConfig_work p _ c (withConfig p c s)).configs⟩

end

/-! ### One CLASS item alone -/

section

variable {s : State} {i : ClassIdx} {e : ClassEntry}

/-- The state with the item's class entry in place. -/
def withClass (i : ClassIdx) (e : ClassEntry) (s : State) : State :=
  { s with mgt := { s.mgt with classes := s.mgt.classes.set i.val e i.isLt } }

theorem applyEvent_class (hh : s.mgt.hold = false) (hed : s.mgt.edits = [.cls i e]) :
    applyEvent s = withoutEdits (stepFive s.mgt.classes (.cls i e) (addClass i e.code (dropClass i e.code (withClass i e s)))) := by
  have steps : fiveSteps s = stepFive s.mgt.classes (.cls i e) (addClass i e.code (dropClass i e.code (withClass i e s))) := by
    simp only [fiveSteps, hed, overItems_single, stepTwo_cls, stepThree_cls, stepFour_cls]
    exact rfl
  rw [applyEvent_applies hh (by rw [hed]; nofun), applyEdits_eq, steps]
  exact rfl

end

/-! ### A position under one CLASS item -/

theorem reevaluateClass_run {i : ClassIdx} {e : ClassEntry} {s : State} (he : s.mgt.classes[i] = e) {p : Pos}
    (h : s.run[p].classIndex = some i) :
    (reevaluateClass i s).run[p] = judgedRuntime e .tableChange (free s p) s.run[p] :=
  ((reevaluateClass_acted he).run p (List.mem_finRange p)).trans (congrArg Act.run (reevaluateAct_hit h))

theorem stepFive_same {old : Vector ClassEntry 32} {i : ClassIdx} {e : ClassEntry} {s : State} {p : Pos}
    (h : s.run[p].classIndex ≠ some i) : SameAt p s (stepFive old (.cls i e) s) := by
  by_cases hc : e.code ≠ 0 ∧ old[i].code = e.code ∧ old[i] ≠ e
  · rw [show stepFive old (.cls i e) s = reevaluateClass i s from if_pos hc]
    exact reevaluateClass_same h
  · rw [show stepFive old (.cls i e) s = s from if_neg hc]
    exact .refl p s

theorem stepFive_evaluates {old : Vector ClassEntry 32} {i : ClassIdx} {e : ClassEntry} {s : State} {p : Pos}
    (he : s.mgt.classes[i] = e) (h : s.run[p].classIndex = some i) :
    (stepFive old (.cls i e) s).run[p] = s.run[p] ∨
      (stepFive old (.cls i e) s).run[p] = judgedRuntime e .tableChange (free s p) s.run[p] := by
  by_cases hc : e.code ≠ 0 ∧ old[i].code = e.code ∧ old[i] ≠ e
  · rw [show stepFive old (.cls i e) s = reevaluateClass i s from if_pos hc]
    exact .inr (reevaluateClass_run he h)
  · rw [show stepFive old (.cls i e) s = s from if_neg hc]
    exact .inl rfl

/-- The latch holds the verdict (R45). -/
theorem judgedRuntime_latched {r : Runtime} (h : r.latch = true) (e : ClassEntry) (reason : Reason) (isFree : Bool) :
    judgedRuntime e reason isFree r = r := if_pos (if_pos h)

/-- An evaluation in CHALLENGING calls for no round (R47). -/
theorem judgedRuntime_challenging {r : Runtime} (h : r.phase = .challenging) (e : ClassEntry) (reason : Reason) (isFree : Bool) :
    (judgedRuntime e reason isFree r).classIndex = r.classIndex ∧ (judgedRuntime e reason isFree r).score = r.score ∧
      (judgedRuntime e reason isFree r).phase = .challenging ∧
      (judgedRuntime e reason isFree r).pendingRequest = r.pendingRequest := by
  have uncalled : calledDue r (judgedVerdict e r) = false := decide_eq_false fun hc => by rw [h] at hc; cases hc.1
  unfold judgedRuntime
  rw [uncalled]
  split
  · exact ⟨rfl, rfl, h, rfl⟩
  · exact ⟨rfl, rfl, h, rfl⟩

section

variable {i : ClassIdx} {e : ClassEntry} {old : Vector ClassEntry 32} {s d g j : State} {p : Pos}
  (hd : dropClass i e.code s = d) (hg : addClass i e.code d = g) (hj : stepFive old (.cls i e) g = j)
  (entry : s.mgt.classes[i] = e)

include hd hg

/-- Steps 3 and 4 leave a position alone that neither loses nor gains the index. -/
theorem classItem_same (hl : s.run[p].classIndex ≠ some i ∨ s.run[p].identity.map Identity.cls = some e.code)
    (hn : s.run[p].classIndex ≠ none ∨ s.run[p].identity.map Identity.cls ≠ some e.code) : SameAt p s g := by
  have dropped := dropClass_same (losesClass_eq_false hl)
  rw [hd] at dropped
  rw [← hg]
  exact dropped.trans (addClass_same (gainsClass_eq_false (by rwa [dropped.run])))

/-- A part of the item's class without an index gains it. -/
theorem classItem_gains (hi : s.run[p].classIndex = none) (hc : s.run[p].identity.map Identity.cls = some e.code)
    (h0 : e.code ≠ 0) : g.run[p] = (gainedAct i s p).run := by
  have dropped := dropClass_same (i := i) (losesClass_eq_false (.inr hc))
  rw [hd] at dropped
  rw [← hg, addClass_hit h0 ((gainsClass_iff d e.code p).2 (by rw [dropped.run]; exact ⟨hi, hc⟩))]
  unfold gainedAct
  rw [dropped.run, dropped.free_eq]

include hj

/-- The index and the work of a part of another class go. -/
theorem classItem_loses (hi : s.run[p].classIndex = some i) (hc : s.run[p].identity.map Identity.cls ≠ some e.code) :
    j.run[p] = lostRuntime s.run[p] ∧ Unasked j p := by
  subst hd hg hj
  obtain ⟨lost, unasked⟩ := dropClass_hit ((losesClass_iff s i e.code p).2 ⟨hi, hc⟩)
  obtain ⟨cleared, ident, -⟩ := lostRuntime_cleared s.run[p]
  have added := addClass_same (i := i) (gainsClass_eq_false (s := dropClass i e.code s) (.inr (by rwa [lost, ident])))
  have run := added.run.trans lost
  have judged := stepFive_same (old := old) (e := e) (s := addClass i e.code (dropClass i e.code s)) (p := p) (i := i)
    (by rw [run, cleared]; nofun)
  exact ⟨judged.run.trans run, (added.trans judged).unasked unasked⟩

theorem classItem_works : PositionWork s g ∧ PositionWork s j := by
  subst hd hg hj
  have worked := (dropClass_work i e.code s).trans (addClass_work i e.code _)
  exact ⟨worked, worked.trans (stepFive_work old (.cls i e) _)⟩

/-- A part of the entry is left alone where the item changes no field. -/
theorem classItem_unchanged (hi : s.run[p].classIndex = some i) (hc : s.run[p].identity.map Identity.cls = some e.code)
    (hsame : old[i] = e) : j.run[p] = s.run[p] := by
  have same := classItem_same hd hg (.inr hc) (.inl (by rw [hi]; nofun))
  have kept : j = g := hj ▸ if_neg fun h => h.2.2 hsame
  rw [kept]
  exact same.run

/-- A part that neither loses nor gains the index, and does not carry it, is left alone. -/
theorem classItem_spares (hi : s.run[p].classIndex ≠ some i)
    (hn : s.run[p].classIndex ≠ none ∨ s.run[p].identity.map Identity.cls ≠ some e.code) : j.run[p] = s.run[p] := by
  have same := classItem_same hd hg (.inl hi) hn
  have judged : SameAt p g j := hj ▸ stepFive_same (by rw [same.run]; exact hi)
  exact judged.run.trans same.run

include entry

theorem classItem_evaluates (h : g.run[p].classIndex = some i) :
    j.run[p] = g.run[p] ∨ j.run[p] = judgedRuntime e .tableChange (free g p) g.run[p] := by
  have entryG : g.mgt.classes[i] = e := (congrArg (fun v => v[i]) (classItem_works hd hg hj).1.classes).trans entry
  rw [← hj]
  exact stepFive_evaluates entryG h

/-- A part that gains the index starts anew, and an evaluation in step 5 leaves that. -/
theorem classItem_restarts (hi : s.run[p].classIndex = none) (hc : s.run[p].identity.map Identity.cls = some e.code)
    (h0 : e.code ≠ 0) (hl : s.run[p].latch = false) : j.run[p].classIndex = some i ∧ j.run[p].score = 0 ∧
      j.run[p].phase = .challenging ∧ (Unasked s p → j.run[p].pendingRequest = some .new) := by
  obtain ⟨index, score, phase, request⟩ := gainedAct_started (i := i) hl
  rw [← classItem_gains hd hg hi hc h0] at index score phase request
  rcases classItem_evaluates hd hg hj entry index with h | h
  · rw [h]
    exact ⟨index, score, phase, request⟩
  · obtain ⟨indexKept, scoreKept, phaseKept, requestKept⟩ := judgedRuntime_challenging phase e .tableChange (free g p)
    rw [h]
    exact ⟨indexKept.trans index, scoreKept.trans score, phaseKept, fun hu => requestKept.trans (request hu)⟩

/-- A part with the latch takes the index alone. -/
theorem classItem_latched (hi : s.run[p].classIndex = none) (hc : s.run[p].identity.map Identity.cls = some e.code)
    (h0 : e.code ≠ 0) (hl : s.run[p].latch = true) : j.run[p] = { s.run[p] with classIndex := some i } := by
  have gained : g.run[p] = { s.run[p] with classIndex := some i } :=
    (classItem_gains hd hg hi hc h0).trans (congrArg Act.run (if_pos hl))
  rcases classItem_evaluates hd hg hj entry (p := p) (by rw [gained]) with h | h
  · exact h.trans gained
  · rw [h, judgedRuntime_latched (by rw [gained]; exact hl)]
    exact gained

/-- A part of an entry whose other fields changed is evaluated anew, its score kept. -/
theorem classItem_reevaluates (hi : s.run[p].classIndex = some i) (hc : s.run[p].identity.map Identity.cls = some e.code)
    (h0 : e.code ≠ 0) (hcode : old[i].code = e.code) (hne : old[i] ≠ e) :
    j.run[p].score = s.run[p].score ∧ VerdictStep e s.run[p].latch s.run[p].score s.run[p].verdict j.run[p].verdict := by
  have same := classItem_same hd hg (.inr hc) (.inl (by rw [hi]; nofun))
  have entryG : g.mgt.classes[i] = e := (congrArg (fun v => v[i]) (classItem_works hd hg hj).1.classes).trans entry
  have run : j.run[p] = judgedRuntime e .tableChange (free g p) s.run[p] := by
    rw [← hj, show stepFive old (.cls i e) g = reevaluateClass i g from if_pos ⟨h0, hcode, hne⟩,
      reevaluateClass_run entryG (by rw [same.run]; exact hi), same.run]
  rw [run, judgedRuntime_verdict]
  exact ⟨judgedRuntime_score _ _ _ _, judgedVerdict_step e s.run[p]⟩

end

/-! ### The obligation -/

/-- Settles O46: the five steps, the exchange, and the parts under one item. -/
theorem applicationReactsToOneItem : Obligations.ApplicationReactsToOneItem := by
  unfold Obligations.ApplicationReactsToOneItem
  refine ⟨fun s h => applyEvent_plain h.symm, fun s hh he honce => ?_, fun s i j e f hh hed hij he hf hne he0 hf0 p => ?_,
    fun s hh => ⟨fun p c hed => ?_, fun i e hed => ?_⟩⟩
  · rw [applyEvent_applies hh he]
    exact applyEdits_inSteps honce
  · have run := applyEvent_exchange hh hed he hf hne rfl
    have exchange {k : ClassIdx} (h : (applyEvent s).run[p] = exchanged k s.run[p]) :
        (s.run[p].latch = false → (applyEvent s).run[p] = { s.run[p] with
          classIndex := some k, score := 0, verdict := .undecided, reason := some .classUnknown, phase := .challenging,
          sweepAge := 0, remaining := 0, pendingRequest := some .new, roundKind := .new }) ∧
        (s.run[p].latch = true → (applyEvent s).run[p] = { s.run[p] with
          classIndex := some k, pendingRequest := none, remaining := 0 }) := by
      refine ⟨fun hl => h.trans ?_, fun hl => h.trans (if_pos hl)⟩
      exact if_neg (by rw [hl]; nofun)
    refine ⟨fun hi hc => exchange ?_, fun hj hc => exchange ?_⟩
    · rw [run]
      exact exchange_first (s := replaceEntry (.cls j f) (replaceEntry (.cls i e) s)) hne hf0 hi hc
    · rw [run]
      exact exchange_second (s := replaceEntry (.cls j f) (replaceEntry (.cls i e) s)) hne he0 hj hc
  · obtain ⟨v, hv, reaction, others, configs⟩ := applyEvent_config_reacts hh hed
    rw [hv]
    refine ⟨withoutEdits v, withConfig p c s, rfl, rfl, rfl, ?_, fun q hq => ?_, others,
      fun ho hn hp => ⟨v, rfl, reaction.disabled ho hn hp⟩, fun ho hn hp => (reaction.enabled ho hn hp).2.2,
      fun ho hp hs => (reaction.restarted ho hp hs).2.2, fun ho h => ?_⟩
    · exact (congrArg (fun v => v[p]) configs).trans (Vector.getElem_set_self p.isLt)
    · exact (congrArg (fun v => v[q]) configs).trans (Vector.getElem_set_ne p.isLt q.isLt fun e => hq (Fin.ext e.symm))
    · rw [reaction.kept (.inr (.inr ⟨ho, h⟩))]
      exact rfl
  · obtain ⟨d, hd⟩ : ∃ d, dropClass i e.code (withClass i e s) = d := ⟨_, rfl⟩
    obtain ⟨g, hg⟩ : ∃ g, addClass i e.code d = g := ⟨_, rfl⟩
    obtain ⟨j, hj⟩ : ∃ j, stepFive s.mgt.classes (.cls i e) g = j := ⟨_, rfl⟩
    have work := (classItem_works hd hg hj).2
    have entry : (withClass i e s).mgt.classes[i] = e := Vector.getElem_set_self i.isLt
    refine ⟨withoutEdits j, by rw [applyEvent_class hh hed, hd, hg, hj], rfl, (congrArg (fun v => v[i]) work.classes).trans entry,
      work.configs, fun k hk => (congrArg (fun v => v[k]) work.classes).trans
        (Vector.getElem_set_ne i.isLt k.isLt fun h => hk (Fin.ext h.symm)), fun p code hcode => ?_⟩
    subst hcode
    have same : (withClass i e s).run = s.run := rfl
    have loses := classItem_loses (p := p) hd hg hj
    have unchanged := classItem_unchanged (p := p) hd hg hj
    have restarts := classItem_restarts (p := p) hd hg hj entry
    have latched := classItem_latched (p := p) hd hg hj entry
    have reevaluates := classItem_reevaluates (p := p) hd hg hj entry
    have spares := classItem_spares (p := p) hd hg hj
    rw [same] at loses unchanged restarts latched reevaluates spares
    refine ⟨fun hi hc hl => ?_, fun hi hc hl => ?_, unchanged, restarts, latched, reevaluates, spares⟩
    · obtain ⟨run, unasked⟩ := loses hi hc
      exact ⟨run.trans (if_neg (by rw [hl]; nofun)), unasked⟩
    · obtain ⟨run, unasked⟩ := loses hi hc
      exact ⟨run.trans (if_pos hl), unasked⟩

end Sys2Proof.Machine
end
